-- ==== Sys2Proof/Word.lean ====
section
/-! DEFINITION. The word types of the engine's interfaces and registers (spec/00_scope.md R7; spec/30_encoding.md R71, R74). -/

namespace Sys2Proof

/-- A u32 register, operand, or binary32 output word (R7, R81). -/
abbrev Word := BitVec 32

/-- One byte of a serialised word (R54). -/
abbrev Byte := BitVec 8

/-- A 40-bit command word (R71). -/
abbrev CommandWord := BitVec 40

/-- A 64-bit event record (R74). -/
abbrev EventRecord := BitVec 64

/-- A MIDI note number, `data1[6:0]`, in 0..127 (R77). -/
abbrev Note := BitVec 7

/-- The 14-bit pitch-bend value `v` (R78). -/
abbrev BendValue := BitVec 14

end Sys2Proof
end

