-- ==== Sys2Proof/Syntax.lean ====
section
/-! DEFINITION. The engine's operations, one constructor per row of spec/opcode_table.json. Every bit of a command word or event record is a field, so that nothing of an encoding is dropped. -/

namespace Sys2Proof

/-- The formats of spec/opcode_table.json: the 40-bit command word (R71), the 64-bit event record (R74)
and the one-bit reset input (R82). -/
inductive Format where
  | cmd40
  | evt64
  | resetPin
  deriving DecidableEq, Repr

/-- The operations of the engine that have an encoding. -/
inductive Instr where
  /-- SET_POT_A, op 0x01 (R170). -/
  | setPotA (operand : Word)
  /-- SET_POT_B, op 0x02 (R171). -/
  | setPotB (operand : Word)
  /-- SET_GAIN, op 0x03 (R172). -/
  | setGain (operand : Word)
  /-- SET_GESTURE, op 0x04 (R173). -/
  | setGesture (operand : Word)
  /-- SET_SAMPLE_RATE, op 0x05 (R140). -/
  | setSampleRate (rate : Word)
  /-- RENDER_BLOCK, op 0x06 (R152). Its event list comes from the event port (R73). -/
  | renderBlock (length : Word)
  /-- RESERVED, op 0x00 (R174). -/
  | reserved00 (operand : Word)
  /-- RESERVED, op 0x07 (R174). -/
  | reserved07 (operand : Word)
  /-- RESERVED, op 0x08 to 0x0F; `low` is op[2:0] (R174). -/
  | reserved08 (low : BitVec 3) (operand : Word)
  /-- RESERVED, op 0x10 to 0x1F; `low` is op[3:0] (R174). -/
  | reserved10 (low : BitVec 4) (operand : Word)
  /-- RESERVED, op 0x20 to 0x3F; `low` is op[4:0] (R174). -/
  | reserved20 (low : BitVec 5) (operand : Word)
  /-- RESERVED, op 0x40 to 0x7F; `low` is op[5:0] (R174). -/
  | reserved40 (low : BitVec 6) (operand : Word)
  /-- RESERVED, op 0x80 to 0xFF; `low` is op[6:0] (R174). -/
  | reserved80 (low : BitVec 7) (operand : Word)
  /-- NOTE_OFF: status nibble 0x8 (R76, R122). -/
  | noteOff (note : Note) (velocity : Byte) (channel : BitVec 4) (offset : Word)
  /-- NOTE_ON: status nibble 0x9 (R76, R121). -/
  | noteOn (note : Note) (velocity : Byte) (channel : BitVec 4) (offset : Word)
  /-- PITCH_BEND: status nibble 0xE; `value` is `data2 * 128 + data1` (R76, R78, R123). -/
  | pitchBend (value : BendValue) (channel : BitVec 4) (offset : Word)
  /-- IGNORED: every other event record (R76, R80, R124). -/
  | ignored (nbytes data2 data1 status : Byte) (offset : Word)
  /-- RESET: the reset input asserted (R82, R220). -/
  | reset
  deriving DecidableEq, Repr

/-- The format an operation is encoded in. -/
def Instr.format : Instr → Format
  | .setPotA _ => .cmd40
  | .setPotB _ => .cmd40
  | .setGain _ => .cmd40
  | .setGesture _ => .cmd40
  | .setSampleRate _ => .cmd40
  | .renderBlock _ => .cmd40
  | .reserved00 _ => .cmd40
  | .reserved07 _ => .cmd40
  | .reserved08 _ _ => .cmd40
  | .reserved10 _ _ => .cmd40
  | .reserved20 _ _ => .cmd40
  | .reserved40 _ _ => .cmd40
  | .reserved80 _ _ => .cmd40
  | .noteOff _ _ _ _ => .evt64
  | .noteOn _ _ _ _ => .evt64
  | .pitchBend _ _ _ => .evt64
  | .ignored _ _ _ _ _ => .evt64
  | .reset => .resetPin

end Sys2Proof
end

