-- ==== Sys2Proof/WellFormed.lean ====
section
/-! DEFINITION. Which terms of `Instr` stand for an encoding. The field types bound every operand; only IGNORED needs a check, because it is the row of lowest priority (spec/30_encoding.md R76). -/

namespace Sys2Proof

/-- Row 1 of R76: the record is a NOTE_OFF. -/
def matchesNoteOff (nbytes data1 status : Byte) : Bool :=
  nbytes == 3#8 && status.extractLsb' 4 4 == 0x8#4 && data1.getLsbD 7 == false

/-- Row 2 of R76: the record is a NOTE_ON. -/
def matchesNoteOn (nbytes data1 status : Byte) : Bool :=
  nbytes == 3#8 && status.extractLsb' 4 4 == 0x9#4 && data1.getLsbD 7 == false

/-- Row 3 of R76: the record is a PITCH_BEND. -/
def matchesPitchBend (nbytes data2 data1 status : Byte) : Bool :=
  nbytes == 3#8 && status.extractLsb' 4 4 == 0xE#4 && data1.getLsbD 7 == false
    && data2.getLsbD 7 == false

/-- An IGNORED operation is well-formed when its record matches no row of higher priority (R76). Every
other operation is well-formed by its field types. -/
def Instr.wellFormed : Instr → Bool
  | .ignored nbytes data2 data1 status _ =>
      !matchesNoteOff nbytes data1 status && !matchesNoteOn nbytes data1 status
        && !matchesPitchBend nbytes data2 data1 status
  | .setPotA _ => true
  | .setPotB _ => true
  | .setGain _ => true
  | .setGesture _ => true
  | .setSampleRate _ => true
  | .renderBlock _ => true
  | .reserved00 _ => true
  | .reserved07 _ => true
  | .reserved08 _ _ => true
  | .reserved10 _ _ => true
  | .reserved20 _ _ => true
  | .reserved40 _ _ => true
  | .reserved80 _ _ => true
  | .noteOff _ _ _ _ => true
  | .noteOn _ _ _ _ => true
  | .pitchBend _ _ _ => true
  | .reset => true

end Sys2Proof
end

