-- ==== Sys2Proof/Decode.lean ====
section
/-! DEFINITION. The decoders of command words, event records and the reset input, total, rejecting by name; then the encoder, written from the same tables (spec/30_encoding.md R71 to R82, R85). -/

namespace Sys2Proof

/-! ### Serialised words (spec/20_memory.md R54, R55) -/

/-- Little-endian assembly: the first byte is the least significant (R54). -/
def natOfBytes : List Byte → Nat
  | [] => 0
  | b :: bs => b.toNat + 256 * natOfBytes bs

/-- The `n` low bytes of a number, least significant first (R54). -/
def bytesOfNat : Nat → Nat → List Byte
  | 0, _ => []
  | n + 1, w => BitVec.ofNat 8 w :: bytesOfNat n (w / 256)

/-- The size in bytes of a serialised word of each format. The reset input is one bit, serialised as one
byte (DESIGN CHOICE, log 13). -/
def Format.bytes : Format → Nat
  | .cmd40 => 5
  | .evt64 => 8
  | .resetPin => 1

/-- Why serialised bytes are no operation. -/
inductive DecodeError where
  /-- "A serialised word of the wrong size: refused at the decoder" (R201, R55). -/
  | wrongSize (found : Nat)
  /-- The reset input is not asserted (bit 0 is 0), so there is no RESET (R82; log 13). -/
  | resetNotAsserted
  /-- The byte that carries the one-bit reset input is neither 0 nor 1 (R82; log 13). -/
  | resetNotOneBit
  deriving DecidableEq, Repr

/-! ### The command word (R71, R72) -/

/-- `op = w[39:32]`. -/
def opOf (w : CommandWord) : BitVec 8 := w.extractLsb' 32 8

/-- `operand = w[31:0]`. -/
def operandOf (w : CommandWord) : Word := w.extractLsb' 0 32

/-- The command opcode map of R72: total, an unlisted opcode is reserved (R79, R85). The reserved rows are
told apart as spec/opcode_table.json splits them, by the leading bits of `op`. -/
def decodeCommand (w : CommandWord) : Instr :=
  let op := opOf w
  let x := operandOf w
  if op = 0x01#8 then .setPotA x
  else if op = 0x02#8 then .setPotB x
  else if op = 0x03#8 then .setGain x
  else if op = 0x04#8 then .setGesture x
  else if op = 0x05#8 then .setSampleRate x
  else if op = 0x06#8 then .renderBlock x
  else if op = 0x00#8 then .reserved00 x
  else if op = 0x07#8 then .reserved07 x
  else if op.getLsbD 7 then .reserved80 (op.extractLsb' 0 7) x
  else if op.getLsbD 6 then .reserved40 (op.extractLsb' 0 6) x
  else if op.getLsbD 5 then .reserved20 (op.extractLsb' 0 5) x
  else if op.getLsbD 4 then .reserved10 (op.extractLsb' 0 4) x
  else .reserved08 (op.extractLsb' 0 3) x

/-! ### The event record (R74 to R78) -/

/-- `nbytes = w[63:56]`. -/
def recordNbytes (w : EventRecord) : Byte := w.extractLsb' 56 8

/-- `data2 = w[55:48]`. -/
def recordData2 (w : EventRecord) : Byte := w.extractLsb' 48 8

/-- `data1 = w[47:40]`. -/
def recordData1 (w : EventRecord) : Byte := w.extractLsb' 40 8

/-- `status = w[39:32]`. -/
def recordStatus (w : EventRecord) : Byte := w.extractLsb' 32 8

/-- `offset = w[31:0]`. -/
def recordOffset (w : EventRecord) : Word := w.extractLsb' 0 32

/-- `v = {data2[6:0], data1[6:0]}` (R78). -/
def bendValueOf (data2 data1 : Byte) : BendValue := data2.extractLsb' 0 7 ++ data1.extractLsb' 0 7

/-- The first matching row of R76. -/
def decodeEvent (w : EventRecord) : Instr :=
  let nbytes := recordNbytes w
  let data2 := recordData2 w
  let data1 := recordData1 w
  let status := recordStatus w
  let nibble := status.extractLsb' 4 4
  let channel := status.extractLsb' 0 4
  let full := nbytes == 0x03#8
  if full && nibble == 0x8#4 && !data1.getLsbD 7 then
    .noteOff (data1.extractLsb' 0 7) data2 channel (recordOffset w)
  else if full && nibble == 0x9#4 && !data1.getLsbD 7 then
    .noteOn (data1.extractLsb' 0 7) data2 channel (recordOffset w)
  else if full && nibble == 0xE#4 && !data1.getLsbD 7 && !data2.getLsbD 7 then
    .pitchBend (bendValueOf data2 data1) channel (recordOffset w)
  else .ignored nbytes data2 data1 status (recordOffset w)

/-! ### Decoding serialised words -/

/-- The decoder on serialised bytes: it fails only on a word of the wrong size (R85), and on a reset input
that is not asserted. -/
def decodeBytes (f : Format) (bytes : List Byte) : Except DecodeError Instr :=
  if bytes.length = f.bytes then
    match f with
    | .cmd40 => .ok (decodeCommand (BitVec.ofNat 40 (natOfBytes bytes)))
    | .evt64 => .ok (decodeEvent (BitVec.ofNat 64 (natOfBytes bytes)))
    | .resetPin =>
      if natOfBytes bytes = 1 then .ok .reset
      else if natOfBytes bytes = 0 then .error .resetNotAsserted
      else .error .resetNotOneBit
  else .error (.wrongSize bytes.length)

/-- The format a row's width in bits belongs to, widths taken in whole bytes. -/
def formatOfBits (nbits : Nat) : Option Format :=
  if (nbits + 7) / 8 = 5 then some .cmd40
  else if (nbits + 7) / 8 = 8 then some .evt64
  else if (nbits + 7) / 8 = 1 then some .resetPin
  else none

/-- The instruction the decoder reads from a word of `nbits` bits, laid out as its serialised bytes. -/
def decodeTableWord (nbits w : Nat) : Option Instr :=
  match formatOfBits nbits with
  | none => none
  | some f =>
    match decodeBytes f (bytesOfNat f.bytes w) with
    | .ok i => some i
    | .error _ => none

/-! ### The encoder -/

/-- A command word from its fields (R71). -/
def commandWord (op : BitVec 8) (operand : Word) : CommandWord := op ++ operand

/-- An event record from its fields (R74). -/
def eventRecord (nbytes data2 data1 status : Byte) (offset : Word) : EventRecord :=
  nbytes ++ data2 ++ data1 ++ status ++ offset

/-- The word of an operation as a number: 40 bits for a command, 64 for a record, 1 for the reset input.
A 7-bit note or bend half is a data byte with bit 7 clear (R77, R78). -/
def encodeNat : Instr → Nat
  | .setPotA x => (commandWord 0x01#8 x).toNat
  | .setPotB x => (commandWord 0x02#8 x).toNat
  | .setGain x => (commandWord 0x03#8 x).toNat
  | .setGesture x => (commandWord 0x04#8 x).toNat
  | .setSampleRate x => (commandWord 0x05#8 x).toNat
  | .renderBlock x => (commandWord 0x06#8 x).toNat
  | .reserved00 x => (commandWord 0x00#8 x).toNat
  | .reserved07 x => (commandWord 0x07#8 x).toNat
  | .reserved08 low x => (commandWord (0b00001#5 ++ low) x).toNat
  | .reserved10 low x => (commandWord (0b0001#4 ++ low) x).toNat
  | .reserved20 low x => (commandWord (0b001#3 ++ low) x).toNat
  | .reserved40 low x => (commandWord (0b01#2 ++ low) x).toNat
  | .reserved80 low x => (commandWord (0b1#1 ++ low) x).toNat
  | .noteOff n v ch off => (eventRecord 0x03#8 v (0#1 ++ n) (0x8#4 ++ ch) off).toNat
  | .noteOn n v ch off => (eventRecord 0x03#8 v (0#1 ++ n) (0x9#4 ++ ch) off).toNat
  | .pitchBend v ch off =>
      (eventRecord 0x03#8 (0#1 ++ v.extractLsb' 7 7) (0#1 ++ v.extractLsb' 0 7) (0xE#4 ++ ch) off).toNat
  | .ignored nb d2 d1 st off => (eventRecord nb d2 d1 st off).toNat
  | .reset => 1

/-- The serialised word of an operation (R54). -/
def encode (i : Instr) : List Byte := bytesOfNat i.format.bytes (encodeNat i)

end Sys2Proof
end

