-- ==== Sys2Proof/Config.lean ====
section
/-! DEFINITION. The constants the spec fixes (spec/00_scope.md R5) and the parameters it leaves OPEN (R6), the latter as constants with no body, so that no proof can see a value. -/

namespace Sys2Proof.Config

/-! ### Constants of R5 -/

/-- `POT_MAX`. -/
abbrev potMax : Nat := 470000

/-- `A_OFFSET`. -/
abbrev aOffset : Nat := 1000

/-- The numerator of `K_RC` = 693/1000. -/
abbrev kRcNumerator : Nat := 693

/-- The denominator of `K_RC` = 693/1000. -/
abbrev kRcDenominator : Nat := 1000

/-- The denominator of `C_AST` = 1/10^8. -/
abbrev cAstDenominator : Nat := 10 ^ 8

/-- The denominator of `C_MONO` = 1/10^7. -/
abbrev cMonoDenominator : Nat := 10 ^ 7

/-- The denominator of `K_RC * C_AST` = 693 / 10^11 (R101, R102). -/
abbrev astableScale : Nat := kRcDenominator * cAstDenominator

/-- The denominator of `K_RC * C_MONO` = 693 / 10^10 (R103). -/
abbrev monostableScale : Nat := kRcDenominator * cMonoDenominator

/-- `BEND_CENTER`. -/
abbrev bendCenter : Nat := 0x2000

/-- `NOTE_COUNT`. -/
abbrev noteCount : Nat := 128

/-- `MEMBER_WORDS`: the membership words of the note set. -/
abbrev memberWords : Nat := 4

/-- The largest value of a u32, where counters saturate (R6 `COUNTER_WIDTH`, R150). -/
abbrev u32Max : Nat := 2 ^ 32 - 1

/-- The binary32 word of 1.0 (R9). -/
abbrev floatOne : Word := 0x3F800000#32

/-- The binary32 word of +0.0, which is also silence (R9, R151). -/
abbrev floatZero : Word := 0x00000000#32

/-! ### The open parameters of R6 -/

/-- A potentiometer value: in [0, `POT_MAX`]. -/
abbrev PotValue := Fin (potMax + 1)

/-- A legal content of `gain`: the binary32 words of [+0.0, 1.0] that are neither -0.0 nor NaN are
exactly the words 0x00000000 to 0x3F800000 (R6, R28). -/
abbrev GainValue := Fin (0x3F800000 + 1)

/-- `REF_PITCH`: "an opaque type that no rule reads" (R6, R31). DESIGN CHOICE (log 3): carried as one
number, which no definition of the model reads. -/
structure RefPitch where
  raw : Nat
  deriving DecidableEq, Repr, Inhabited

/-- One entry of `NOTE_TABLE` (R6, R31). The types of `a` and `b` admit no entry above `POT_MAX`. -/
structure NoteEntry where
  a : PotValue
  b : PotValue
  refPitch : RefPitch
  deriving DecidableEq, Repr, Inhabited

/-- `NOTE_TABLE`: 128 entries, one per MIDI note number (R31). -/
abbrev NoteTable := Vector NoteEntry noteCount

/-- The note table of the engine: OPEN (R6), read-only, not changed by RESET (R31, R220). -/
opaque noteTable : NoteTable

/-- `DEFAULT_A`, the reset value of `pair_a`: OPEN (R6). -/
opaque defaultA : PotValue

/-- `DEFAULT_B`, the reset value of `pair_b`: OPEN (R6). -/
opaque defaultB : PotValue

/-- `DEFAULT_GAIN`, the reset value of `gain`: OPEN (R6). -/
opaque defaultGain : GainValue

/-- `MAX_BLOCK_LENGTH`: "the largest `L` the host issues; at most 2^32-1" (R6). A bound on the host, read
only by the launch premises of Safety.lean. -/
opaque maxBlockLength : Word

/-- `MAX_EVENTS`: "the largest event count per block the host issues" (R6). -/
opaque maxEvents : Word

/-! ### Refusing an ill-formed table (R31, R201) -/

/-- A raw entry `(a, b, ref_pitch)`, refused when `a` or `b` is above `POT_MAX`. -/
def loadNoteEntry (raw : Nat × Nat × Nat) : Option NoteEntry :=
  if ha : raw.1 < potMax + 1 then
    if hb : raw.2.1 < potMax + 1 then some ⟨⟨raw.1, ha⟩, ⟨raw.2.1, hb⟩, ⟨raw.2.2⟩⟩ else none
  else none

/-- A raw table, refused unless it has 128 entries that all load (R31: the model "refuses a table that
breaks this"). -/
def loadNoteTable (raw : List (Nat × Nat × Nat)) : Option NoteTable :=
  match raw.mapM loadNoteEntry with
  | none => none
  | some entries =>
    if h : entries.length = noteCount then some ⟨entries.toArray, by simpa using h⟩ else none

end Sys2Proof.Config
end

