-- ==== Sys2Proof/Machine/State.lean ====
section
/-! DEFINITION. The machine's state as plain data (spec/10_state.md R20 to R33, and the interfaces of spec/30_encoding.md R70), the reasons a step can stop, and the state after RESET. -/

namespace Sys2Proof.Machine

/-- The note set: `note_word[0]` to `note_word[MEMBER_WORDS - 1]` (R5, R27). -/
structure NoteSet where
  words : Vector Word Config.memberWords
  deriving DecidableEq, Repr

/-- No note is held: every membership word is 0 (R27). -/
def NoteSet.empty : NoteSet := ⟨Vector.replicate Config.memberWords 0#32⟩

/-- The four control registers that are written through a pending FIFO (R33, R60). -/
inductive Fifo where
  | potA
  | potB
  | gain
  | gesture
  deriving DecidableEq, Repr

/-- A command issued while a block is in progress and held until its END (R61). -/
inductive HeldCommand where
  /-- A SET_SAMPLE_RATE (R141). -/
  | setSampleRate (rate : Word)
  /-- A RENDER_BLOCK (R152). -/
  | renderBlock (length : Word)
  deriving DecidableEq, Repr

/-- One thing an agent has issued (R70, R208). -/
inductive Arrival where
  /-- A command word at the command port, serialised (R54, R71). -/
  | command (bytes : List Byte)
  /-- The reset input asserted (R82). -/
  | reset
  deriving DecidableEq, Repr

/-- Which of the enabled atomic steps of R59 is next. -/
inductive Move where
  /-- The next step of the block in progress (DISPATCH, RENDER_SAMPLE or END); when idle, the oldest held
  command takes effect. -/
  | engine
  /-- The next arrival is taken: ISSUE of a control write, START, SET_SAMPLE_RATE, RESET or a reserved
  command. -/
  | take
  /-- APPLY of the head of one pending FIFO. -/
  | apply (fifo : Fifo)
  deriving DecidableEq, Repr

/-- What a finished block leaves outside the engine (R37, R211): its output words in index order and the
return value `written_samples`. -/
structure BlockResult where
  samples : List Word
  written : Word
  deriving DecidableEq, Repr

/-- The state of the engine and of its interfaces. -/
structure State where
  /-- `pair_a` (R21). -/
  pairA : Word
  /-- `pair_b` (R22). -/
  pairB : Word
  /-- `sample_rate` (R23). -/
  sampleRate : Word
  /-- `astable_run` (R24). -/
  astableRun : Word
  /-- `monostable_run` (R25). -/
  monostableRun : Word
  /-- `output_level`: true is high (R26). -/
  outputLevel : Bool
  /-- `note_word[0..3]` (R27). -/
  notes : NoteSet
  /-- `gain`, a binary32 word (R28). -/
  gain : Word
  /-- `gesture_active` (R29). -/
  gestureActive : Bool
  /-- `busy` (R32). -/
  busy : Bool
  /-- `blk_len` (R32). -/
  blkLen : Word
  /-- `i` (R32). -/
  sampleIdx : Word
  /-- `k` (R32). -/
  eventIdx : Word
  /-- `evbuf` (R32). -/
  evbuf : List EventRecord
  /-- `pend_a`, oldest first (R33). -/
  pendA : List Word
  /-- `pend_b`, oldest first (R33). -/
  pendB : List Word
  /-- `pend_gain`, oldest first (R33). -/
  pendGain : List Word
  /-- `pend_gesture`, oldest first (R33). -/
  pendGesture : List Word
  /-- The model's own: what has been issued and not yet taken, in issue order (R63, R70; log 1). -/
  port : List Arrival
  /-- The model's own: the event lists of the RENDER_BLOCKs that have not started, in issue order
  (R52, R70; log 11). -/
  eventPort : List (List EventRecord)
  /-- The model's own: commands held until END, oldest first (R61; log 9). -/
  held : List HeldCommand
  /-- The model's own: the moves that come next, where the spec leaves the order free (R59, R60; log 7). -/
  schedule : List Move
  /-- The model's own: the output words of the block in progress, in index order (R53; log 12). -/
  out : List Word
  /-- The model's own: the finished blocks, oldest first (R211; log 12). -/
  finished : List BlockResult
  deriving DecidableEq, Repr

/-- Why the machine would stop with a fault. The engine "raises no synchronous exception" (R200), takes no
interrupt (R202) and has no access that can miss (R50 to R52), so there is no fault. -/
inductive Fault where
  deriving DecidableEq, Repr

/-- Why the model gives a step no meaning. -/
inductive Refusal where
  /-- Raised by `exec` for an instruction whose meaning is not written. No arm raises it. Safe. -/
  | notModelled (mnemonic : String)
  /-- Raised by RESET while `busy == 1`: "refused: the model records a refusal and gives the run no
  meaning" (R201, R221). Safe. -/
  | resetWhileBusy
  /-- Raised when an arrival at the command port is not one whole command word: "refused at the decoder"
  (R55, R201). Safe. -/
  | wrongSizeWord (bytes : Nat)
  /-- Raised by START for an event list of 2^32 or more records, which the u32 cursor `k` cannot index
  (R32): "the model may refuse the launch" (R201; log 5). Safe. -/
  | tooManyEvents
  deriving DecidableEq, Repr

/-- The state after RESET with nothing issued (R220, and each register's own rule): the pair and the gain
at the OPEN parameters of R6, everything else of R20 at 0 or empty. The fields R32 gives no value while
idle are 0 and empty (DESIGN CHOICE, log 6); the interface lists are empty (log 1). -/
def State.reset : State :=
  { pairA := BitVec.ofNat 32 Config.defaultA.val
    pairB := BitVec.ofNat 32 Config.defaultB.val
    sampleRate := 0#32
    astableRun := 0#32
    monostableRun := 0#32
    outputLevel := false
    notes := NoteSet.empty
    gain := BitVec.ofNat 32 Config.defaultGain.val
    gestureActive := false
    busy := false
    blkLen := 0#32
    sampleIdx := 0#32
    eventIdx := 0#32
    evbuf := []
    pendA := []
    pendB := []
    pendGain := []
    pendGesture := []
    port := []
    eventPort := []
    held := []
    schedule := []
    out := []
    finished := [] }

end Sys2Proof.Machine
end

