-- ==== Sys2Proof/Machine/Operands.lean ====
section
/-! DEFINITION. The integer and binary32 primitives (spec/00_scope.md R8, R9) and every operand form (spec/30_encoding.md R73, R77, R78; spec/45_control.md R170 to R173). -/

namespace Sys2Proof.Machine

/-! ### Integer primitives (R8) -/

/-- `ceil_div(a, b)`, on the unbounded integers, for `b > 0`. -/
def ceilDiv (a b : Int) : Int := (a + b - 1) / b

/-- `RoundHalfUp(n, d)`: n/d to the nearest integer, an exact half up. -/
def roundHalfUp (n d : Nat) : Nat := (2 * n + d) / (2 * d)

/-- `Clamp(v, lo, hi)`. -/
def clamp (v lo hi : Int) : Int := if v < lo then lo else if hi < v then hi else v

/-- Storing `min(v, 2^32 - 1)` into a u32 (R7, R140, R150). -/
def saturate (v : Nat) : Word := BitVec.ofNat 32 (min v Config.u32Max)

/-- Storing an integer that fits a u32 (R7: "legal only when the rule shows that the value fits"). -/
def storeInt (v : Int) : Word := BitVec.ofNat 32 v.toNat

/-! ### Binary32 predicates (R9) -/

/-- `u[30:0]`. -/
def magnitude32 (u : Word) : BitVec 31 := u.extractLsb' 0 31

/-- `IsNaN32(u)`. -/
def isNaN32 (u : Word) : Bool := decide (0x7F800000#31 < magnitude32 u)

/-- `IsNeg32(u)`. -/
def isNeg32 (u : Word) : Bool := u.getLsbD 31

/-- `GeOne32(u)`. -/
def geOne32 (u : Word) : Bool := !u.getLsbD 31 && decide (0x3F800000#31 ≤ magnitude32 u)

/-- `Neg32(u)`: the exact binary32 negation. -/
def neg32 (u : Word) : Word := u ^^^ 0x80000000#32

/-! ### Operand forms (R73) -/

/-- SET_POT_A and SET_POT_B: `Clamp(sext_32(operand), 0, POT_MAX)` (R170, R171). -/
def potOperand (operand : Word) : Word := storeInt (clamp operand.toInt 0 Config.potMax)

/-- SET_GAIN: NaN, negatives and both zeros give +0.0, 1.0 and above give 1.0, the rest is kept (R172). -/
def gainOperand (u : Word) : Word :=
  if isNaN32 u then Config.floatZero
  else if isNeg32 u || u == 0#32 then Config.floatZero
  else if geOne32 u then Config.floatOne
  else u

/-- SET_GESTURE: `operand[0]`; bits 31:1 are ignored (R173). -/
def gestureOperand (operand : Word) : Bool := operand.getLsbD 0

/-- PITCH_BEND: `bend = v - BEND_CENTER`, in [-8192, 8191] (R78). -/
def bendOperand (v : BendValue) : Int := (v.toNat : Int) - Config.bendCenter

end Sys2Proof.Machine
end

