-- ==== Sys2Proof/Machine/Flags.lean ====
section
/-! DEFINITION. The one status bit of the engine, `output_level` (spec/10_state.md R26, R35), as RENDER_SAMPLE step 2 computes it (spec/44_render.md R150). -/

namespace Sys2Proof.Machine

/-- Step 2 releases the monostable: `monostable_run >= mh`. -/
def released (monostableRun monostableHigh : Nat) : Bool := decide (monostableHigh ≤ monostableRun)

/-- Step 2 re-triggers: the monostable is released and the astable stage is exactly at its high/low
boundary, `astable_run == ah`, on the value step 1 left. -/
def retriggers (astableRun astableHigh monostableRun monostableHigh : Nat) : Bool :=
  released monostableRun monostableHigh && decide (astableRun = astableHigh)

/-- `output_level` after step 2: low once released, high on a re-trigger, kept otherwise (R26). -/
def levelAfter (level : Bool) (astableRun astableHigh monostableRun monostableHigh : Nat) : Bool :=
  if released monostableRun monostableHigh then
    retriggers astableRun astableHigh monostableRun monostableHigh
  else level

end Sys2Proof.Machine
end

