-- ==== Sys2Proof/Machine/Ops.lean ====
section
/-! DEFINITION. The named operations over State that the meanings share: register updates, the note set (spec/41_note_set.md), the three index spaces (spec/20_memory.md R50 to R53), the timer circuit (spec/40_timer_circuit.md), the pending FIFOs, and the reset of every state element. The engine has no exception to take and none to return from (spec/60_exceptions.md R200, R204), so there is no operation for either. -/

namespace Sys2Proof.Machine

/-! ### Register updates -/

/-- Both fields of the ParameterPair in one atomic write (R121). -/
def State.setPair (s : State) (a b : Word) : State := { s with pairA := a, pairB := b }

/-- `pair_a <- a`. -/
def State.setPairA (s : State) (a : Word) : State := { s with pairA := a }

/-- `pair_b <- b`. -/
def State.setPairB (s : State) (b : Word) : State := { s with pairB := b }

/-- The four note words. -/
def State.setNotes (s : State) (ns : NoteSet) : State := { s with notes := ns }

/-- `gain <- g`. -/
def State.setGainReg (s : State) (g : Word) : State := { s with gain := g }

/-- `gesture_active <- g`. -/
def State.setGestureReg (s : State) (g : Bool) : State := { s with gestureActive := g }

/-- `sample_rate <- r`. -/
def State.setRateReg (s : State) (r : Word) : State := { s with sampleRate := r }

/-- Both phase counters. -/
def State.setCounters (s : State) (a m : Word) : State := { s with astableRun := a, monostableRun := m }

/-- `output_level <- l`. -/
def State.setLevel (s : State) (l : Bool) : State := { s with outputLevel := l }

/-! ### Sequencing and interface updates -/

/-- The schedule entry of this step is used up. -/
def State.dropMove (s : State) : State := { s with schedule := s.schedule.tail }

/-- The oldest arrival leaves the port. -/
def State.dropArrival (s : State) : State := { s with port := s.port.tail }

/-- The oldest held command is released. -/
def State.dropHeld (s : State) : State := { s with held := s.held.tail }

/-- A command is held, "not lost", until END (R61). -/
def State.hold (s : State) (c : HeldCommand) : State := { s with held := s.held ++ [c] }

/-- `k <- k + 1` (R125). -/
def State.advanceEvent (s : State) : State := { s with eventIdx := s.eventIdx + 1#32 }

/-- `i <- i + 1` (R125). -/
def State.advanceSample (s : State) : State := { s with sampleIdx := s.sampleIdx + 1#32 }

/-- START: `busy <- 1 ; blk_len <- L ; evbuf <- ev ; i <- 0 ; k <- 0` (R152). The block's event list leaves
the event port. -/
def State.beginBlock (s : State) (length : Word) (events : List EventRecord) : State :=
  { s with busy := true, blkLen := length, evbuf := events, sampleIdx := 0#32, eventIdx := 0#32,
           eventPort := s.eventPort.tail, out := [] }

/-- END: `busy <- 0`, the left-over records are discarded (R127), and the block's words and return value
`L` are delivered (R152, R211). -/
def State.endBlock (s : State) : State :=
  { s with busy := false, evbuf := [], out := [],
           finished := s.finished ++ [{ samples := s.out, written := s.blkLen }] }

/-! ### The pending FIFOs (R33, R60) -/

/-- The operands waiting in one FIFO, oldest first. -/
def State.pending (s : State) : Fifo → List Word
  | .potA => s.pendA
  | .potB => s.pendB
  | .gain => s.pendGain
  | .gesture => s.pendGesture

/-- The contents of one FIFO replaced. -/
def State.setPending (s : State) (f : Fifo) (ws : List Word) : State :=
  match f with
  | .potA => { s with pendA := ws }
  | .potB => { s with pendB := ws }
  | .gain => { s with pendGain := ws }
  | .gesture => { s with pendGesture := ws }

/-- ISSUE: the raw operand is appended to its register's FIFO (R175). -/
def State.issue (s : State) (f : Fifo) (operand : Word) : State :=
  s.setPending f (s.pending f ++ [operand])

/-! ### The note set (R110 to R114) -/

/-- `note_word[j]`. -/
def NoteSet.word (ns : NoteSet) (j : BitVec 2) : Word := ns.words[j.toNat]'j.isLt

/-- `note_word[j] <- w`. -/
def NoteSet.setWord (ns : NoteSet) (j : BitVec 2) (w : Word) : NoteSet := ⟨ns.words.set j.toNat w j.isLt⟩

/-- `n[6:5]`: the word that holds note `n` (R110). -/
def noteWordIndex (n : Note) : BitVec 2 := n.extractLsb' 5 2

/-- `1 << n[4:0]` (R111). -/
def noteBit (n : Note) : Word := 1#32 <<< (n.extractLsb' 0 5).toNat

/-- NS_SET(n) (R111). -/
def NoteSet.set (ns : NoteSet) (n : Note) : NoteSet :=
  ns.setWord (noteWordIndex n) (ns.word (noteWordIndex n) ||| noteBit n)

/-- NS_CLEAR(n) (R112). -/
def NoteSet.clear (ns : NoteSet) (n : Note) : NoteSet :=
  ns.setWord (noteWordIndex n) (ns.word (noteWordIndex n) &&& ~~~noteBit n)

/-- Note `n` is held (R27, R110). -/
def NoteSet.held (ns : NoteSet) (n : Note) : Bool :=
  (ns.word (noteWordIndex n)).getLsbD (n.extractLsb' 0 5).toNat

/-- NS_EMPTY() (R114). -/
def NoteSet.isEmpty (ns : NoteSet) : Bool := ns.words.toList.foldl (· ||| ·) 0#32 == 0#32

/-- The index of the least significant 1 bit of a word, if it has one. -/
def lowestBit (w : Word) : Option Nat := (List.range 32).find? fun b => w.getLsbD b

/-- The scan of R113 over words that start at note `base`; `NONE` is 128. -/
def scanWords : Nat → List Word → Nat
  | _, [] => Config.noteCount
  | base, w :: ws =>
    match lowestBit w with
    | some b => base + b
    | none => scanWords (base + 32) ws

/-- NS_LOWEST(): the smallest held note, or `NONE` = 128 (R113). -/
def NoteSet.lowest (ns : NoteSet) : Nat := scanWords 0 ns.words.toList

/-! ### The three index spaces (R50 to R53) -/

/-- `TableRead(n)`, total on the 128 notes (R51). -/
def tableRead (table : Config.NoteTable) (n : Note) : Config.NoteEntry := table[n.toNat]'n.isLt

/-- The entry of the governing note, `TableRead(NS_LOWEST())`. Every caller tests NS_EMPTY first, so the
index is a note (R51, R113). -/
def governingEntry (table : Config.NoteTable) (ns : NoteSet) : Config.NoteEntry :=
  tableRead table (BitVec.ofNat 7 ns.lowest)

/-- `pair_a <- e.a ; pair_b <- e.b` (R121, R122). -/
def State.setPairFromEntry (s : State) (e : Config.NoteEntry) : State :=
  s.setPair (BitVec.ofNat 32 e.a.val) (BitVec.ofNat 32 e.b.val)

/-- `EventRead(k)`, where `k < E` (R52). -/
def State.eventRead (s : State) : Option EventRecord := s.evbuf[s.eventIdx.toNat]?

/-- `OutWrite(i, v)`: indices come in increasing order, so the word is appended (R53). -/
def State.outWrite (s : State) (v : Word) : State := { s with out := s.out ++ [v] }

/-! ### The timer circuit (R100 to R104) -/

/-- DerivedTimings: `(astable_high, astable_low, monostable_high)`. -/
structure Timings where
  astableHigh : Nat
  astableLow : Nat
  monostableHigh : Nat
  deriving DecidableEq, Repr

/-- `retune(a, b, sr)`, exact (R100 to R103). -/
def retune (a b sr : Nat) : Timings :=
  { astableHigh := roundHalfUp (Config.kRcNumerator * (a + Config.aOffset) * sr) Config.astableScale
    astableLow := roundHalfUp (Config.kRcNumerator * a * sr) Config.astableScale
    monostableHigh := roundHalfUp (Config.kRcNumerator * b * sr) Config.monostableScale }

/-- The derived timings are combinational: at every step they are `retune` of the registers (R30, R104). -/
def State.timings (s : State) : Timings := retune s.pairA.toNat s.pairB.toNat s.sampleRate.toNat

/-! ### Commands that wait for END (R61) -/

/-- A START or rate change must wait: a block is in progress, or an older command is already held and
"commands are consumed in the order the host issues them" (R61, R63; log 9). -/
def State.mustHold (s : State) : Bool := s.busy || !s.held.isEmpty

/-! ### Reset (R220) -/

/-- Every state element of R20 at its reset value; what the host and the agents hold (the port, the event
port, the held commands, the schedule, the finished blocks) is not engine state and stays (log 10). -/
def State.resetEngine (s : State) : State :=
  { State.reset with
    port := s.port, eventPort := s.eventPort, held := s.held, schedule := s.schedule
    finished := s.finished }

end Sys2Proof.Machine
end

