-- ==== Sys2Proof/Machine/Control.lean ====
section
/-! DEFINITION. The control-surface writes: ISSUE as the meaning of the command, APPLY as the effect on the register; and the reserved commands (spec/45_control.md R170 to R175). -/

namespace Sys2Proof.Machine

/-! ### APPLY effects -/

/-- SET_POT_A at APPLY (R170). -/
def applyPotA (operand : Word) (s : State) : State := s.setPairA (potOperand operand)

/-- SET_POT_B at APPLY (R171). -/
def applyPotB (operand : Word) (s : State) : State := s.setPairB (potOperand operand)

/-- SET_GAIN at APPLY (R172). -/
def applyGain (operand : Word) (s : State) : State := s.setGainReg (gainOperand operand)

/-- SET_GESTURE at APPLY (R173). -/
def applyGesture (operand : Word) (s : State) : State := s.setGestureReg (gestureOperand operand)

/-- The register effect of a pending write, by its FIFO (R60, R175). -/
def applyWrite : Fifo → Word → State → State
  | .potA => applyPotA
  | .potB => applyPotB
  | .gain => applyGain
  | .gesture => applyGesture

/-- APPLY: the head of one FIFO is popped and takes effect (R60, R175). With an empty FIFO there is no
APPLY, and nothing changes. -/
def State.applyHead (s : State) (f : Fifo) : State :=
  match s.pending f with
  | [] => s
  | operand :: rest => applyWrite f operand (s.setPending f rest)

/-! ### Meanings: ISSUE (R175) -/

/-- SET_POT_A: ISSUE into `pend_a`, in any state (R170, R175). -/
def execSetPotA (operand : Word) (s : State) : Host.Outcome State Fault Refusal :=
  .next (s.issue .potA operand)

/-- SET_POT_B: ISSUE into `pend_b`, in any state (R171, R175). -/
def execSetPotB (operand : Word) (s : State) : Host.Outcome State Fault Refusal :=
  .next (s.issue .potB operand)

/-- SET_GAIN: ISSUE into `pend_gain`, in any state (R172, R175). -/
def execSetGain (operand : Word) (s : State) : Host.Outcome State Fault Refusal :=
  .next (s.issue .gain operand)

/-- SET_GESTURE: ISSUE into `pend_gesture`, in any state (R173, R175). -/
def execSetGesture (operand : Word) (s : State) : Host.Outcome State Fault Refusal :=
  .next (s.issue .gesture operand)

/-! ### Meanings: RESERVED (R174) -/

/-- "Effect: none. No register, FIFO, counter or output changes" (R174). -/
def reservedEffect (s : State) : State := s

/-- RESERVED, op 0x00 (R174). -/
def execReserved00 (_operand : Word) (s : State) : Host.Outcome State Fault Refusal :=
  .next (reservedEffect s)

/-- RESERVED, op 0x07 (R174). -/
def execReserved07 (_operand : Word) (s : State) : Host.Outcome State Fault Refusal :=
  .next (reservedEffect s)

/-- RESERVED, op 0x08 to 0x0F (R174). -/
def execReserved08 (_low : BitVec 3) (_operand : Word) (s : State) : Host.Outcome State Fault Refusal :=
  .next (reservedEffect s)

/-- RESERVED, op 0x10 to 0x1F (R174). -/
def execReserved10 (_low : BitVec 4) (_operand : Word) (s : State) : Host.Outcome State Fault Refusal :=
  .next (reservedEffect s)

/-- RESERVED, op 0x20 to 0x3F (R174). -/
def execReserved20 (_low : BitVec 5) (_operand : Word) (s : State) : Host.Outcome State Fault Refusal :=
  .next (reservedEffect s)

/-- RESERVED, op 0x40 to 0x7F (R174). -/
def execReserved40 (_low : BitVec 6) (_operand : Word) (s : State) : Host.Outcome State Fault Refusal :=
  .next (reservedEffect s)

/-- RESERVED, op 0x80 to 0xFF (R174). -/
def execReserved80 (_low : BitVec 7) (_operand : Word) (s : State) : Host.Outcome State Fault Refusal :=
  .next (reservedEffect s)

end Sys2Proof.Machine
end

