-- ==== Sys2Proof/Machine/Events.lean ====
section
/-! DEFINITION. The Event Dispatcher's operations NOTE_ON, NOTE_OFF, PITCH_BEND and IGNORED (spec/42_event_dispatch.md R120 to R124). A record's channel, velocity and offset never change what it does (R76, R120). Each effect takes the note table as an argument, so that it can be run on any table (R6); the meanings use the engine's. -/

namespace Sys2Proof.Machine

/-- NOTE_ON: the note is set and the pair becomes its table entry, even when a lower note is held (R121). -/
def noteOnEffect (table : Config.NoteTable) (n : Note) (s : State) : State :=
  (s.setNotes (s.notes.set n)).setPairFromEntry (tableRead table n)

/-- NOTE_OFF: the note is cleared; while a note stays held the pair becomes the lowest held note's entry,
else the pair is kept (R122). -/
def noteOffEffect (table : Config.NoteTable) (n : Note) (s : State) : State :=
  let ns := s.notes.clear n
  if ns.isEmpty then s.setNotes ns
  else (s.setNotes ns).setPairFromEntry (governingEntry table ns)

/-- The bent `pair_b` around the centre `c`: the floor of the exact value (R123). -/
def bentB (c : Nat) (bend : Int) : Int :=
  if 0 ≤ bend then c - ceilDiv (bend * c) 8192
  else c + ((-bend) * (Config.potMax - c)) / 8192

/-- PITCH_BEND: a no-op with no note held; else `pair_b` is bent from the governing note's table `b`
(R123). -/
def pitchBendEffect (table : Config.NoteTable) (v : BendValue) (s : State) : State :=
  if s.notes.isEmpty then s
  else s.setPairB (storeInt (bentB (governingEntry table s.notes).b.val (bendOperand v)))

/-- IGNORED: no state change (R124). -/
def ignoredEffect (s : State) : State := s

/-- NOTE_OFF (R122). -/
def execNoteOff (note : Note) (_velocity : Byte) (_channel : BitVec 4) (_offset : Word) (s : State) :
    Host.Outcome State Fault Refusal :=
  .next (noteOffEffect Config.noteTable note s)

/-- NOTE_ON (R121). -/
def execNoteOn (note : Note) (_velocity : Byte) (_channel : BitVec 4) (_offset : Word) (s : State) :
    Host.Outcome State Fault Refusal :=
  .next (noteOnEffect Config.noteTable note s)

/-- PITCH_BEND (R123). -/
def execPitchBend (value : BendValue) (_channel : BitVec 4) (_offset : Word) (s : State) :
    Host.Outcome State Fault Refusal :=
  .next (pitchBendEffect Config.noteTable value s)

/-- IGNORED (R124). -/
def execIgnored (_nbytes _data2 _data1 _status : Byte) (_offset : Word) (s : State) :
    Host.Outcome State Fault Refusal :=
  .next (ignoredEffect s)

end Sys2Proof.Machine
end

