-- ==== Sys2Proof/Machine/Rate.lean ====
section
/-! DEFINITION. The Sample-Rate Adapter: SET_SAMPLE_RATE (spec/43_sample_rate.md R140, R141). -/

namespace Sys2Proof.Machine

/-- A phase counter rescaled by `new / old`, to nearest, a half up, saturating (R140). -/
def rescale (run new old : Word) : Word := saturate (roundHalfUp (run.toNat * new.toNat) old.toNat)

/-- The effect of SET_SAMPLE_RATE between blocks: a zero rate is ignored; with no earlier rate the slope
is 1 and the counters stay (R140). -/
def setSampleRateEffect (new : Word) (s : State) : State :=
  if new = 0#32 then s
  else if s.sampleRate = 0#32 then s.setRateReg new
  else
    (s.setCounters (rescale s.astableRun new s.sampleRate) (rescale s.monostableRun new s.sampleRate)).setRateReg
      new

/-- SET_SAMPLE_RATE: its effect when it may act, else held until after END (R140, R141). -/
def execSetSampleRate (new : Word) (s : State) : Host.Outcome State Fault Refusal :=
  if s.mustHold then .next (s.hold (.setSampleRate new)) else .next (setSampleRateEffect new s)

end Sys2Proof.Machine
end

