-- ==== Sys2Proof/Machine/Render.lean ====
section
/-! DEFINITION. The Render Step, the output mux and RENDER_BLOCK's START (spec/44_render.md R150 to R152). -/

namespace Sys2Proof.Machine

/-- `MUX(empty, gesture, level, gain)` (R151). -/
def mux (empty gesture level : Bool) (gain : Word) : Word :=
  if empty && !gesture then Config.floatZero
  else if level then gain
  else neg32 gain

/-- `astable_run` after step 1, the astable wrap (R150). -/
def wrappedAstable (s : State) : Nat :=
  if s.timings.astableHigh + s.timings.astableLow ≤ s.astableRun.toNat then 0 else s.astableRun.toNat

/-- Step 2's re-trigger condition in this state, on the value step 1 left (R150). -/
def sampleRetriggers (s : State) : Bool :=
  retriggers (wrappedAstable s) s.timings.astableHigh s.monostableRun.toNat s.timings.monostableHigh

/-- `monostable_run` after step 2: 0 on a re-trigger (R150). -/
def retriggeredMonostable (s : State) : Nat :=
  if sampleRetriggers s then 0 else s.monostableRun.toNat

/-- `output_level` after step 2 (R150). -/
def sampleLevel (s : State) : Bool :=
  levelAfter s.outputLevel (wrappedAstable s) s.timings.astableHigh s.monostableRun.toNat
    s.timings.monostableHigh

/-- Steps 1 to 3 of RENDER_SAMPLE: wrap, release and re-trigger, then both counters advance, saturating
(R150). -/
def renderAdvance (s : State) : State :=
  (s.setCounters (saturate (wrappedAstable s + 1)) (saturate (retriggeredMonostable s + 1))).setLevel
    (sampleLevel s)

/-- Step 4: the sample RENDER_SAMPLE returns, on the level step 2 left (R150, R151). -/
def renderedSample (s : State) : Word :=
  mux s.notes.isEmpty s.gestureActive (sampleLevel s) s.gain

/-- `OutWrite(i, RENDER_SAMPLE()) ; i <- i + 1`, one atomic step (R59, R125, R150). -/
def renderSample (s : State) : State :=
  ((renderAdvance s).outWrite (renderedSample s)).advanceSample

/-- START (R152) with the next event list of the event port. A list that the u32 cursor cannot index is a
launch the model refuses (R32, R201; log 5). -/
def startBlock (length : Word) (s : State) : Host.Outcome State Fault Refusal :=
  let events := s.eventPort.headD []
  if events.length < 2 ^ 32 then .next (s.beginBlock length events) else .refused .tooManyEvents

/-- RENDER_BLOCK: START when it may act, else held until after END (R61, R152). -/
def execRenderBlock (length : Word) (s : State) : Host.Outcome State Fault Refusal :=
  if s.mustHold then .next (s.hold (.renderBlock length)) else startBlock length s

end Sys2Proof.Machine
end

