-- ==== Sys2Proof/Machine/Reset.lean ====
section
/-! DEFINITION. RESET (spec/70_reset_and_hazards.md R220, R221). -/

namespace Sys2Proof.Machine

/-- RESET: when idle, one atomic step that sets every state element to its reset value; while a block is
in progress the model records a refusal (R220, R221). -/
def execReset (s : State) : Host.Outcome State Fault Refusal :=
  if s.busy then .refused .resetWhileBusy else .next s.resetEngine

end Sys2Proof.Machine
end

