-- ==== Sys2Proof/Machine/Dispatch.lean ====
section
/-! DEFINITION. The meaning of each operation, one arm per constructor of Instr. -/

namespace Sys2Proof.Machine

def exec (i : Instr) (s : State) : Host.Outcome State Fault Refusal :=
  match i with
  | .setPotA operand => Sys2Proof.Machine.execSetPotA operand s
  | .setPotB operand => Sys2Proof.Machine.execSetPotB operand s
  | .setGain operand => Sys2Proof.Machine.execSetGain operand s
  | .setGesture operand => Sys2Proof.Machine.execSetGesture operand s
  | .setSampleRate rate => Sys2Proof.Machine.execSetSampleRate rate s
  | .renderBlock length => Sys2Proof.Machine.execRenderBlock length s
  | .reserved00 operand => Sys2Proof.Machine.execReserved00 operand s
  | .reserved07 operand => Sys2Proof.Machine.execReserved07 operand s
  | .reserved08 low operand => Sys2Proof.Machine.execReserved08 low operand s
  | .reserved10 low operand => Sys2Proof.Machine.execReserved10 low operand s
  | .reserved20 low operand => Sys2Proof.Machine.execReserved20 low operand s
  | .reserved40 low operand => Sys2Proof.Machine.execReserved40 low operand s
  | .reserved80 low operand => Sys2Proof.Machine.execReserved80 low operand s
  | .noteOff note velocity channel offset => Sys2Proof.Machine.execNoteOff note velocity channel offset s
  | .noteOn note velocity channel offset => Sys2Proof.Machine.execNoteOn note velocity channel offset s
  | .pitchBend value channel offset => Sys2Proof.Machine.execPitchBend value channel offset s
  | .ignored nbytes data2 data1 status offset => Sys2Proof.Machine.execIgnored nbytes data2 data1 status offset s
  | .reset => Sys2Proof.Machine.execReset s

end Sys2Proof.Machine
end

