-- ==== Sys2Proof/Machine/Sequencer.lean ====
section
/-! DEFINITION. Which atomic step of spec/20_memory.md R59 comes next, and each of those steps: taking an arrival (fetch, decode, execute), the next step of the block in progress (spec/42_event_dispatch.md R125), releasing a held command (R61), and APPLY (R60). -/

namespace Sys2Proof.Machine

/-! ### The order of steps (R59, R60, R61) -/

/-- The atomic steps that can happen in a state: APPLY of a non-empty FIFO (R60), taking an arrival, the
next step of the block in progress or, when idle, the release of the oldest held command (R61). -/
def State.enabled (s : State) : Move → Bool
  | .engine => s.busy || !s.held.isEmpty
  | .take => !s.port.isEmpty
  | .apply f => !(s.pending f).isEmpty

/-- The eager schedule of R175: each control write applies at once, a block runs to its END, held commands
take effect before later arrivals are taken (DESIGN CHOICE, log 8). `none`: nothing is enabled. -/
def State.eagerMove (s : State) : Option Move :=
  if s.enabled (.apply .potA) then some (.apply .potA)
  else if s.enabled (.apply .potB) then some (.apply .potB)
  else if s.enabled (.apply .gain) then some (.apply .gain)
  else if s.enabled (.apply .gesture) then some (.apply .gesture)
  else if s.enabled .engine then some .engine
  else if s.enabled .take then some .take
  else none

/-- The next move: the head of the schedule where it names an enabled step, else the eager one (log 7). -/
def State.nextMove (s : State) : Option Move :=
  match s.schedule with
  | [] => s.eagerMove
  | m :: _ => if s.enabled m then some m else s.eagerMove

/-! ### Taking an arrival -/

/-- The operation an arrival stands for (R70, R82, R85). -/
def decodeArrival : Arrival → Except DecodeError Instr
  | .command bytes => decodeBytes .cmd40 bytes
  | .reset => .ok .reset

/-- The serialised size of an arrival. -/
def arrivalBytes : Arrival → Nat
  | .command bytes => bytes.length
  | .reset => 1

/-- The oldest arrival leaves the port and is executed; a serialised word of the wrong size is refused
(R55, R201). -/
def takeArrival (s : State) : Host.Outcome State Fault Refusal :=
  match s.port with
  | [] => .next s
  | a :: _ =>
    match decodeArrival a with
    | .ok i => exec i s.dropArrival
    | .error _ => .refused (.wrongSizeWord (arrivalBytes a))

/-! ### The block in progress (R125) -/

/-- The record the loop of R125 dispatches before the current sample, `EventRead(k)` with `k < E` and
`offset <= i`, if there is one. -/
def State.dueEvent (s : State) : Option EventRecord :=
  match s.eventRead with
  | none => none
  | some r => if recordOffset r ≤ s.sampleIdx then some r else none

/-- The next step of the block: END when `i == L` (R152), else DISPATCH of a due event (R120), else
RENDER_SAMPLE of sample `i` (R150). -/
def blockStep (s : State) : Host.Outcome State Fault Refusal :=
  if s.sampleIdx < s.blkLen then
    match s.dueEvent with
    | some r => exec (decodeEvent r) s.advanceEvent
    | none => .next (renderSample s)
  else .next s.endBlock

/-! ### Held commands (R61) -/

/-- The oldest held command takes effect, in the order of issue (R61, R63, R141). -/
def releaseHeld (s : State) : Host.Outcome State Fault Refusal :=
  match s.held with
  | [] => .next s
  | .setSampleRate rate :: _ => .next (setSampleRateEffect rate s.dropHeld)
  | .renderBlock length :: _ => startBlock length s.dropHeld

/-! ### One atomic step -/

/-- The engine's own next step. -/
def engineStep (s : State) : Host.Outcome State Fault Refusal :=
  if s.busy then blockStep s else releaseHeld s

/-- One chosen move. With nothing enabled the engine waits and all state persists (R210, log 20). -/
def runMove (m : Option Move) (s : State) : Host.Outcome State Fault Refusal :=
  match m with
  | none => .next s
  | some .engine => engineStep s
  | some .take => takeArrival s
  | some (.apply f) => .next (s.applyHead f)

/-- One atomic step: the move is chosen, its schedule entry is used up, and it runs. -/
def stepOnce (s : State) : Host.Outcome State Fault Refusal := runMove s.nextMove s.dropMove

/-! ### Placing an instruction where the next step takes it -/

/-- A command word issued at the port, first in line and scheduled next (log 1). -/
def State.placeCommand (s : State) (w : Nat) : State :=
  { s with port := .command (bytesOfNat Format.cmd40.bytes w) :: s.port, schedule := .take :: s.schedule }

/-- The reset input asserted, first in line and scheduled next (log 1). -/
def State.placeReset (s : State) : State :=
  { s with port := .reset :: s.port, schedule := .take :: s.schedule }

/-- A block in progress whose one event record is due at its current sample: `i` is the record's offset
and the block is one sample longer. For offset 2^32-1 there is no longer block (log 14). -/
def State.placeEvent (s : State) (w : Nat) : State :=
  { s with busy := true, evbuf := [BitVec.ofNat 64 w], eventIdx := 0#32
           sampleIdx := recordOffset (BitVec.ofNat 64 w)
           blkLen := saturate ((recordOffset (BitVec.ofNat 64 w)).toNat + 1)
           schedule := .engine :: s.schedule }

/-- An instruction's bits placed where the next step takes them, by the row's width. -/
def State.placeWord (s : State) (nbits w : Nat) : State :=
  match formatOfBits nbits with
  | some .cmd40 => s.placeCommand w
  | some .evt64 => s.placeEvent w
  | some .resetPin => if w % 2 = 1 then s.placeReset else s
  | none => s

end Sys2Proof.Machine
end

