-- ==== Sys2Proof/Machine/Assembler.lean ====
section
/-! DEFINITION. The assembler syntax and pseudo-instructions of spec/30_encoding.md R83 and R84: a line of text becomes what the agents issue, and a program becomes a list of arrivals and a list of event lists. -/

namespace Sys2Proof.Machine

/-- What one source line issues. -/
inductive CoreLine where
  /-- The reset input is asserted. -/
  | reset
  /-- One command word. -/
  | command (op : BitVec 8) (operand : Word)
  /-- A RENDER_BLOCK whose event records follow. -/
  | openBlock (length : Word)
  /-- One event record of the open block. -/
  | event (record : EventRecord)
  /-- The open block's list ends. -/
  | closeBlock
  deriving DecidableEq, Repr

/-- A source line with its numbers as written (R83, R84). -/
inductive SourceLine where
  | blank
  | reset
  | rate (n : Int)
  | potA (v : Int)
  | potB (v : Int)
  | gain (w : Int)
  | gesture (g : Int)
  | cmd (op n : Int)
  | render (length : Int)
  | renderEmpty (length : Int)
  | event (offset status data1 data2 nbytes : Int)
  | close
  | on (offset n v : Int)
  | off (offset n v : Int)
  | bend (offset s : Int)
  | bendraw (offset v : Int)
  | pair (a b : Int)
  | mute
  deriving DecidableEq, Repr

/-! ### Operand ranges -/

/-- A `<u32>` operand; none outside [0, 2^32 - 1]. -/
def asmU32 (v : Int) : Option Word :=
  if 0 ≤ v ∧ v ≤ 2 ^ 32 - 1 then some (BitVec.ofInt 32 v) else none

/-- An `<i32>` operand; none outside [-2^31, 2^31 - 1]. -/
def asmI32 (v : Int) : Option Word :=
  if -(2 ^ 31) ≤ v ∧ v ≤ 2 ^ 31 - 1 then some (BitVec.ofInt 32 v) else none

/-- A byte; none outside [0, 255]. -/
def asmByte (v : Int) : Option Byte :=
  if 0 ≤ v ∧ v ≤ 255 then some (BitVec.ofInt 8 v) else none

/-- One command line: its operand must be in range. -/
def asmCommand (op : BitVec 8) (operand : Option Word) : Option (List CoreLine) :=
  operand.map fun x => [.command op x]

/-- One event line: every field must be in range. -/
def asmEvent (offset status data1 data2 nbytes : Int) : Option (List CoreLine) :=
  match asmU32 offset, asmByte status, asmByte data1, asmByte data2, asmByte nbytes with
  | some o, some st, some d1, some d2, some nb => some [.event (eventRecord nb d2 d1 st o)]
  | _, _, _, _, _ => none

/-- The data bytes of a 14-bit value: `v & 0x7F`, then `v >> 7` (R84). -/
def asmBend (offset v : Int) : Option (List CoreLine) :=
  if 0 ≤ v ∧ v ≤ 16383 then asmEvent offset 0xE0 (v % 128) (v / 128) 3 else none

/-! ### Expansion (R83, R84) -/

/-- What a source line issues; none for an operand out of its range. -/
def expandLine : SourceLine → Option (List CoreLine)
  | .blank => some []
  | .reset => some [.reset]
  | .rate n => asmCommand 0x05#8 (asmU32 n)
  | .potA v => asmCommand 0x01#8 (asmI32 v)
  | .potB v => asmCommand 0x02#8 (asmI32 v)
  | .gain w => asmCommand 0x03#8 (asmU32 w)
  | .gesture g => asmCommand 0x04#8 (asmU32 g)
  | .cmd op n =>
    match asmByte op with
    | some o => asmCommand o (asmU32 n)
    | none => none
  | .render l => (asmU32 l).map fun x => [.openBlock x]
  | .renderEmpty l => (asmU32 l).map fun x => [.openBlock x, .closeBlock]
  | .event o st d1 d2 nb => asmEvent o st d1 d2 nb
  | .close => some [.closeBlock]
  | .on o n v => asmEvent o 0x90 n v 3
  | .off o n v => asmEvent o 0x80 n v 3
  | .bend o s => asmBend o (s + 8192)
  | .bendraw o v => asmBend o v
  | .pair a b =>
    match asmCommand 0x01#8 (asmI32 a), asmCommand 0x02#8 (asmI32 b) with
    | some xs, some ys => some (xs ++ ys)
    | _, _ => none
  | .mute => asmCommand 0x04#8 (asmU32 0)

/-! ### Assembling a program -/

/-- What a program makes the agents issue: the arrivals in order, and the event list of each
RENDER_BLOCK in order. -/
structure Program where
  arrivals : List Arrival
  blocks : List (List EventRecord)
  deriving DecidableEq, Repr

/-- A command word as it stands at the port (R54). -/
def commandArrival (op : BitVec 8) (operand : Word) : Arrival :=
  .command (bytesOfNat Format.cmd40.bytes (commandWord op operand).toNat)

/-- The arrival is a RENDER_BLOCK command word. -/
def Arrival.isRenderBlock (a : Arrival) : Bool :=
  match decodeArrival a with
  | .ok (.renderBlock _) => true
  | _ => false

/-- The lines assembled in order, with the event list of the open block if one is open. An event belongs to
an open block, and no command stands inside one (R83). R83 does not say which event list a RENDER_BLOCK
issued by a `cmd 0x06` line carries: DESIGN CHOICE, the empty one, so that every RENDER_BLOCK arrival has a
list of its own and no later block takes another's (log 19). -/
def assembleCore : Option (List EventRecord) → List CoreLine → Option Program
  | none, [] => some { arrivals := [], blocks := [] }
  | some _, [] => none
  | none, .reset :: ls => (assembleCore none ls).map fun p => { p with arrivals := .reset :: p.arrivals }
  | none, .command op x :: ls =>
    (assembleCore none ls).map fun p =>
      { arrivals := commandArrival op x :: p.arrivals
        blocks := if op = 0x06#8 then [] :: p.blocks else p.blocks }
  | none, .openBlock l :: ls =>
    (assembleCore (some []) ls).map fun p => { p with arrivals := commandArrival 0x06#8 l :: p.arrivals }
  | some es, .event r :: ls => assembleCore (some (es ++ [r])) ls
  | some es, .closeBlock :: ls => (assembleCore none ls).map fun p => { p with blocks := es :: p.blocks }
  | none, .event _ :: _ => none
  | none, .closeBlock :: _ => none
  | some _, .reset :: _ => none
  | some _, .command _ _ :: _ => none
  | some _, .openBlock _ :: _ => none

/-- The expansions of all lines, or none if a line has none. -/
def expandAll : List SourceLine → Option (List CoreLine)
  | [] => some []
  | l :: ls =>
    match expandLine l, expandAll ls with
    | some xs, some ys => some (xs ++ ys)
    | _, _ => none

/-- A program from its source lines. -/
def assemble (ls : List SourceLine) : Option Program :=
  match expandAll ls with
  | some cs => assembleCore none cs
  | none => none

/-- A program issued to the engine by the agents: its words join the port and the event port in order. -/
def Program.issue (p : Program) (s : State) : State :=
  { s with port := s.port ++ p.arrivals, eventPort := s.eventPort ++ p.blocks }

/-! ### Reading a line of text (R83) -/

/-- The value of a hexadecimal digit. -/
def digitValue (c : Char) : Option Nat :=
  let n := c.toNat
  if 48 ≤ n ∧ n ≤ 57 then some (n - 48)
  else if 97 ≤ n ∧ n ≤ 102 then some (n - 87)
  else if 65 ≤ n ∧ n ≤ 70 then some (n - 55)
  else none

/-- Digits in a base, after the value `acc` of those before them. -/
def readDigits (base : Nat) : Nat → List Char → Option Nat
  | acc, [] => some acc
  | acc, c :: cs =>
    match digitValue c with
    | some d => if d < base then readDigits base (acc * base + d) cs else none
    | none => none

/-- "Numbers are decimal, or hexadecimal with a `0x` prefix" (R83). -/
def readNat : List Char → Option Nat
  | [] => none
  | ['0', 'x'] => none
  | '0' :: 'x' :: c :: cs => readDigits 16 0 (c :: cs)
  | c :: cs => readDigits 10 0 (c :: cs)

/-- A number, negative ones allowed. -/
def readInt : List Char → Option Int
  | '-' :: cs => (readNat cs).map fun n => -(n : Int)
  | cs => (readNat cs).map fun n => (n : Int)

/-- The text before a `;` (R83: "`;` starts a comment"). -/
def dropComment (cs : List Char) : List Char := cs.takeWhile fun c => c != ';'

/-- The words of a line, split at blanks; `word` is the word being read. -/
def splitWords : List Char → List Char → List (List Char)
  | [], [] => []
  | word, [] => [word]
  | word, c :: cs =>
    if c == ' ' then (if word.isEmpty then splitWords [] cs else word :: splitWords [] cs)
    else splitWords (word ++ [c]) cs

/-- `@<offset>`. -/
def readOffset : List Char → Option Int
  | '@' :: cs => (readNat cs).map fun n => (n : Int)
  | _ => none

/-- `/<nbytes>`. -/
def readNbytes : List Char → Option Int
  | '/' :: cs => (readNat cs).map fun n => (n : Int)
  | _ => none

/-- The opening brace. -/
def openBrace : Char := Char.ofNat 123

/-- The closing brace. -/
def closeBrace : Char := Char.ofNat 125

/-- A line of one number after its name. -/
def lineOf1 (f : Int → SourceLine) (x : List Char) : Option SourceLine := (readInt x).map f

/-- A line of two numbers after its name. -/
def lineOf2 (f : Int → Int → SourceLine) (x y : List Char) : Option SourceLine :=
  match readInt x, readInt y with
  | some a, some b => some (f a b)
  | _, _ => none

/-- A line of an offset and one number. -/
def lineAt1 (f : Int → Int → SourceLine) (o x : List Char) : Option SourceLine :=
  match readOffset o, readInt x with
  | some off, some a => some (f off a)
  | _, _ => none

/-- A line of an offset and two numbers. -/
def lineAt2 (f : Int → Int → Int → SourceLine) (o x y : List Char) : Option SourceLine :=
  match readOffset o, readInt x, readInt y with
  | some off, some a, some b => some (f off a b)
  | _, _, _ => none

/-- An event line `@<offset> <status> <data1> <data2> [/<nbytes>]`; `nbytes` defaults to 3 (R83). -/
def readEventLine (o st d1 d2 : List Char) (nbytes : Option Int) : Option SourceLine :=
  match readOffset o, readInt st, readInt d1, readInt d2, nbytes with
  | some off, some s, some a, some b, some nb => some (.event off s a b nb)
  | _, _, _, _, _ => none

/-- A line of two words: a name and one number. -/
def readLine2 (name x : List Char) : Option SourceLine :=
  if name = ['r', 'a', 't', 'e'] then lineOf1 .rate x
  else if name = ['p', 'o', 't', '_', 'a'] then lineOf1 .potA x
  else if name = ['p', 'o', 't', '_', 'b'] then lineOf1 .potB x
  else if name = ['g', 'a', 'i', 'n'] then lineOf1 .gain x
  else if name = ['g', 'e', 's', 't', 'u', 'r', 'e'] then lineOf1 .gesture x
  else none

/-- A line of three words. The default velocities are 64 for `on` and 0 for `off` (R84). -/
def readLine3 (name x y : List Char) : Option SourceLine :=
  if name = ['c', 'm', 'd'] then lineOf2 .cmd x y
  else if name = ['p', 'a', 'i', 'r'] then lineOf2 .pair x y
  else if name = ['r', 'e', 'n', 'd', 'e', 'r'] then
    if y = [openBrace] then lineOf1 .render x
    else if y = [openBrace, closeBrace] then lineOf1 .renderEmpty x
    else none
  else if name = ['o', 'n'] then lineAt1 (fun o n => .on o n 64) x y
  else if name = ['o', 'f', 'f'] then lineAt1 (fun o n => .off o n 0) x y
  else if name = ['b', 'e', 'n', 'd'] then lineAt1 .bend x y
  else if name = ['b', 'e', 'n', 'd', 'r', 'a', 'w'] then lineAt1 .bendraw x y
  else none

/-- A line of four words: `on` or `off` with its velocity, or an event with `nbytes` 3. -/
def readLine4 (name x y z : List Char) : Option SourceLine :=
  if name = ['o', 'n'] then lineAt2 .on x y z
  else if name = ['o', 'f', 'f'] then lineAt2 .off x y z
  else readEventLine name x y z (some 3)

/-- One line of text (R83, R84); none where the text is no line of the syntax. -/
def readLine (text : List Char) : Option SourceLine :=
  match splitWords [] (dropComment text) with
  | [] => some .blank
  | [a] =>
    if a = ['r', 'e', 's', 'e', 't'] then some .reset
    else if a = ['m', 'u', 't', 'e'] then some .mute
    else if a = [closeBrace] then some .close
    else none
  | [a, b] => readLine2 a b
  | [a, b, c] => readLine3 a b c
  | [a, b, c, d] => readLine4 a b c d
  | [a, b, c, d, e] => readEventLine a b c d (readNbytes e)
  | _ => none

/-- A program from its lines of text. -/
def assembleText (lines : List (List Char)) : Option Program :=
  match lines.mapM readLine with
  | some ls => assemble ls
  | none => none

end Sys2Proof.Machine
end

