-- ==== Sys2Proof/Safety.lean ====
section
/-! DEFINITION. What claims are stated in terms of: the invariants of the state (spec/10_state.md R36), the host's duties for a block (spec/42_event_dispatch.md R128), and the end of a run (spec/60_exceptions.md R211). -/

namespace Sys2Proof.Safety

open Sys2Proof.Machine

/-! ### Invariants -/

/-- R36: the pair stays in [0, POT_MAX] and `gain` in the words of [+0.0, 1.0]. -/
structure RegistersLegal (s : State) : Prop where
  pairA_le : s.pairA.toNat ≤ Config.potMax
  pairB_le : s.pairB.toNat ≤ Config.potMax
  gain_le : s.gain.toNat ≤ Config.floatOne.toNat

/-- The block-progress state is consistent (R32, R53): during a block `0 <= i <= L`, `0 <= k <= E`, the
list is within what the cursor can index, and sample `i` is the next word to write; when idle no word is
waiting to be delivered. -/
structure ProgressLegal (s : State) : Prop where
  sample_le : s.busy = true → s.sampleIdx.toNat ≤ s.blkLen.toNat
  event_le : s.busy = true → s.eventIdx.toNat ≤ s.evbuf.length
  events_lt : s.busy = true → s.evbuf.length < 2 ^ 32
  out_length : s.busy = true → s.out.length = s.sampleIdx.toNat
  out_idle : s.busy = false → s.out = []

/-- A word the engine may emit: silence, or a magnitude of at most 1.0 under either sign (R81). -/
def SampleLegal (v : Word) : Prop := (magnitude32 v).toNat ≤ Config.floatOne.toNat

/-- Every delivered block has exactly as many words as its return value says, and every word emitted is
legal (R81, R152). -/
structure OutputLegal (s : State) : Prop where
  words : ∀ v ∈ s.out, SampleLegal v
  blocks : ∀ r ∈ s.finished, r.samples.length = r.written.toNat ∧ ∀ v ∈ r.samples, SampleLegal v

/-- The invariant of every reachable state. -/
structure Inv (s : State) : Prop where
  registers : RegistersLegal s
  progress : ProgressLegal s
  output : OutputLegal s

/-! ### The kinds of step (R59) -/

/-- The step takes a command word that decodes to this operation (R59 (1), (5), (6), (9)). -/
def TakesCommand (s : State) (i : Instr) : Prop :=
  s.nextMove = some .take ∧
    ∃ bytes rest, s.port = .command bytes :: rest ∧ decodeBytes .cmd40 bytes = .ok i

/-- The step takes an asserted reset (R59 (8)). -/
def TakesReset (s : State) : Prop := s.nextMove = some .take ∧ ∃ rest, s.port = .reset :: rest

/-- The step takes effect of this held command, the oldest one (R61). -/
def Releases (s : State) (c : HeldCommand) : Prop :=
  s.nextMove = some .engine ∧ s.busy = false ∧ ∃ rest, s.held = c :: rest

/-- The step is a rate change (R59 (5)). -/
def ChangesRate (s : State) : Prop :=
  s.busy = false ∧ ∃ r, TakesCommand s (.setSampleRate r) ∨ Releases s (.setSampleRate r)

/-- The step is START (R59 (1)). -/
def StartsBlock (s : State) : Prop :=
  s.busy = false ∧ ∃ l, TakesCommand s (.renderBlock l) ∨ Releases s (.renderBlock l)

/-- The step is DISPATCH of a record that decodes to this operation (R59 (2)). -/
def Dispatches (s : State) (i : Instr) : Prop :=
  s.nextMove = some .engine ∧ s.busy = true ∧ s.sampleIdx < s.blkLen ∧
    ∃ r, s.dueEvent = some r ∧ decodeEvent r = i

/-- The step is DISPATCH of a NOTE_ON or a NOTE_OFF. -/
def DispatchesNote (s : State) : Prop :=
  ∃ n v c o, Dispatches s (.noteOn n v c o) ∨ Dispatches s (.noteOff n v c o)

/-- The step is DISPATCH of a PITCH_BEND. -/
def DispatchesBend (s : State) : Prop := ∃ v c o, Dispatches s (.pitchBend v c o)

/-- The step is RENDER_SAMPLE with its OutWrite (R59 (3)). -/
def RendersSample (s : State) : Prop :=
  s.nextMove = some .engine ∧ s.busy = true ∧ s.sampleIdx < s.blkLen ∧ s.dueEvent = none

/-- The step is END (R59 (4)). -/
def EndsBlock (s : State) : Prop :=
  s.nextMove = some .engine ∧ s.busy = true ∧ s.blkLen ≤ s.sampleIdx

/-! ### The host's duties (R128) -/

/-- R128: the event list the host hands over has its offsets in [0, L), non-decreasing in list order. A
premise of claims, not a check of the engine. -/
structure EventsInOrder (length : Word) (events : List EventRecord) : Prop where
  offsets_lt : ∀ r ∈ events, recordOffset r < length
  ordered : events.Pairwise fun r q => recordOffset r ≤ recordOffset q

/-- A launch the host may make: the event list keeps R128, and both sizes are within the host's own limits
(R6, R201). -/
structure WellDriven (length : Word) (events : List EventRecord) : Prop extends
    EventsInOrder length events where
  length_le : length ≤ Config.maxBlockLength
  events_le : events.length ≤ Config.maxEvents.toNat

/-- In a block whose events are in order no event is late and none is lost: its records keep R128, and once
a sample has been rendered every record not yet dispatched lies at or after the current sample (R125,
R126, R127). -/
structure OnTime (s : State) : Prop where
  offsets_lt : s.busy = true → ∀ r ∈ s.evbuf, recordOffset r < s.blkLen
  ordered : s.busy = true → s.evbuf.Pairwise fun r q => recordOffset r ≤ recordOffset q
  pending_ge : s.busy = true → ∀ r, s.eventRead = some r → s.sampleIdx ≤ recordOffset r

/-! ### Runs and their end (R59, R211) -/

/-- `n` atomic steps, stopping at the first refusal. -/
def runSteps (n : Nat) (s : State) : Host.Outcome State Fault Refusal := Sys2Proof.core.run n s

/-- How many control writes have been issued and not applied (R33). -/
def waitingWrites (s : State) : Nat :=
  s.pendA.length + s.pendB.length + s.pendGain.length + s.pendGesture.length

/-- Every command the agents issued has been taken, no block is in progress, and every pending FIFO is
empty. -/
def RunEnded (s : State) : Prop :=
  s.port = [] ∧ s.held = [] ∧ s.busy = false ∧ ∀ f, s.pending f = []

/-- The observation of a run: each block's output words and return value, in order (R211). -/
def observation (s : State) : List BlockResult := s.finished

/-- A step that is not refused. The engine has no faults (R200), so this is what can go wrong in a run. -/
def StepAccepted (s : State) : Prop := ∃ t, step s = .next t

end Sys2Proof.Safety
end

