-- ==== Sys2Proof/Certificates/Slice0/Obligations.lean ====
section
/-! DEFINITION. The statements for the provers. Each says, in its own words and values, what a numbered rule of spec/ says the machine does, or what follows from several; a docstring names the rule, and the log entry where a clause rests on a choice of the model. -/

open Sys2Proof Sys2Proof.Machine Sys2Proof.Safety

/-! ### Encoding -/

/-- Decoding an encoded well-formed operation gives it back, with every operand at every value (R71 to R78,
R82). -/
def Obligations.DecodeInvertsEncode : Prop :=
  ∀ i : Instr, i.wellFormed = true → decodeBytes i.format (encode i) = .ok i

/-- Every serialised word that decodes is the encoding of the well-formed operation it decodes to, so no
two operations share a word and no bit of a word is dropped (R71 to R78, R82, R85). -/
def Obligations.EncodeInvertsDecode : Prop :=
  ∀ (f : Format) (bytes : List Byte) (i : Instr), decodeBytes f bytes = .ok i →
    i.format = f ∧ i.wellFormed = true ∧ encode i = bytes

/-- The command decoder and the event decoder answer on every well-sized word and refuse every other size
by name (R55, R85). -/
def Obligations.DecodersRefuseOnlyWrongSizes : Prop :=
  ∀ bytes : List Byte,
    (bytes.length = 5 → ∃ i, decodeBytes .cmd40 bytes = .ok i) ∧
      (bytes.length ≠ 5 → decodeBytes .cmd40 bytes = .error (.wrongSize bytes.length)) ∧
      (bytes.length = 8 → ∃ i, decodeBytes .evt64 bytes = .ok i) ∧
      (bytes.length ≠ 8 → decodeBytes .evt64 bytes = .error (.wrongSize bytes.length))

/-- Words written out in spec/95_test_vectors.md decode to the operations they stand for; and the byte 1 is
the reset input asserted, which is the model's serialisation of a single signal (log 13). -/
def Obligations.SpecWordsDecode : Prop :=
  decodeTableWord 40 0x01000001F8 = some (.setPotA 504#32) ∧
    decodeTableWord 40 0x0200072BF1 = some (.setPotB 470001#32) ∧
    decodeTableWord 40 0x033F000000 = some (.setGain 0x3F000000#32) ∧
    decodeTableWord 40 0x0400000003 = some (.setGesture 3#32) ∧
    decodeTableWord 40 0x050000BB80 = some (.setSampleRate 48000#32) ∧
    decodeTableWord 40 0x0600000258 = some (.renderBlock 600#32) ∧
    decodeTableWord 40 0xFF12345678 = some (.reserved80 0x7F#7 0x12345678#32) ∧
    decodeTableWord 64 0x03643C9000000000 = some (.noteOn 60#7 0x64#8 0#4 0#32) ∧
    decodeTableWord 64 0x03003C8000000003 = some (.noteOff 60#7 0#8 0#4 3#32) ∧
    decodeTableWord 64 0x036000E000000001 = some (.pitchBend 0x3000#14 0#4 1#32) ∧
    decodeTableWord 64 0x02643C9000000000 = some (.ignored 2#8 0x64#8 0x3C#8 0x90#8 0#32) ∧
    decodeTableWord 8 1 = some .reset

/-- R76, row by row in its order, over the five fields of a record (R74), with the note of R77 and the
14-bit value of R78. -/
def Obligations.EventDecodeByPriority : Prop :=
  ∀ (nbytes data2 data1 status : Byte) (offset : Word),
    decodeEvent (nbytes ++ data2 ++ data1 ++ status ++ offset) =
      if nbytes.toNat = 3 ∧ status.toNat / 16 = 0x8 ∧ data1.toNat < 128 then
        .noteOff (BitVec.ofNat 7 data1.toNat) data2 (BitVec.ofNat 4 status.toNat) offset
      else if nbytes.toNat = 3 ∧ status.toNat / 16 = 0x9 ∧ data1.toNat < 128 then
        .noteOn (BitVec.ofNat 7 data1.toNat) data2 (BitVec.ofNat 4 status.toNat) offset
      else if nbytes.toNat = 3 ∧ status.toNat / 16 = 0xE ∧ data1.toNat < 128 ∧ data2.toNat < 128 then
        .pitchBend (BitVec.ofNat 14 (data2.toNat * 128 + data1.toNat)) (BitVec.ofNat 4 status.toNat) offset
      else .ignored nbytes data2 data1 status offset

/-- A serialised word holds its bits least significant byte first, and reads back as itself (R54). -/
def Obligations.SerialisedLittleEndian : Prop :=
  ∀ n w : Nat,
    (bytesOfNat n w).length = n ∧
      (∀ j, j < n → (bytesOfNat n w)[j]? = some (BitVec.ofNat 8 (w / 256 ^ j))) ∧
      natOfBytes (bytesOfNat n w) = w % 256 ^ n

/-! ### The step runs what it decodes -/

/-- A step that takes a command word is `exec` of the operation its bytes decode to, on the state with the
arrival and the schedule entry used up; a step that takes an asserted reset is RESET; a step of the block
with a due record is `exec` of the operation the record decodes to, with the cursor `k` one further (R63,
R82, R120, R125). The port and the schedule are the model's (log 1, log 7). -/
def Obligations.StepRunsTheDecodedInstruction : Prop :=
  (∀ (s : State) (bytes : List Byte) (rest : List Arrival) (i : Instr),
      s.nextMove = some .take → s.port = .command bytes :: rest → decodeBytes .cmd40 bytes = .ok i →
        step s = exec i { s with port := rest, schedule := s.schedule.tail }) ∧
    (∀ (s : State) (rest : List Arrival),
      s.nextMove = some .take → s.port = .reset :: rest →
        step s = exec .reset { s with port := rest, schedule := s.schedule.tail }) ∧
    (∀ (s : State) (r : EventRecord),
      s.nextMove = some .engine → s.busy = true → s.sampleIdx < s.blkLen →
        s.evbuf[s.eventIdx.toNat]? = some r → recordOffset r ≤ s.sampleIdx →
          step s = exec (decodeEvent r)
            { s with eventIdx := s.eventIdx + 1#32, schedule := s.schedule.tail })

/-- An instruction placed by withFetchWord is run by the very next step: a command and RESET on the very
state they were placed in; an event operation as the one record of a block in progress, due at its own
offset. No block reaches offset 2^32-1 (R127; log 1, log 14). -/
def Obligations.PlacedInstructionRunsNext : Prop :=
  (∀ (i : Instr) (s : State), i.wellFormed = true → i.format = .cmd40 →
      step (s.withFetchWord 40 (encodeNat i)) = exec i s) ∧
    (∀ s : State, step (s.withFetchWord 8 (encodeNat .reset)) = exec .reset s) ∧
    (∀ (i : Instr) (s : State) (r : EventRecord), i.wellFormed = true → i.format = .evt64 →
      r.toNat = encodeNat i → (recordOffset r).toNat < 2 ^ 32 - 1 →
        step (s.withFetchWord 64 (encodeNat i)) =
          exec i
            { s with
              busy := true, evbuf := [r], eventIdx := 1#32, sampleIdx := recordOffset r
              blkLen := recordOffset r + 1#32 })

/-! ### Control writes (R170 to R175) -/

/-- SET_POT_A: op 0x01; ISSUE appends the raw operand to `pend_a` in any state; APPLY pops it and writes
the signed operand clamped to [0, 470000] to `pair_a`, in any state, and changes nothing else (R170). Which
step is next, and the schedule entry it uses up, are the model's (log 7). -/
def Obligations.SetPotAIssuedThenApplied : Prop :=
  ∀ x : Word,
    decodeCommand (0x01#8 ++ x) = .setPotA x ∧
      (∀ s : State, exec (.setPotA x) s = .next { s with pendA := s.pendA ++ [x] }) ∧
      (∀ (s : State) (rest : List Word),
        s.nextMove = some (.apply .potA) → s.pendA = x :: rest →
          step s = .next
            { s with
              schedule := s.schedule.tail, pendA := rest
              pairA := BitVec.ofNat 32
                (if x.toInt < 0 then 0 else if 470000 < x.toInt then 470000 else x.toNat) })

/-- SET_POT_B: op 0x02; as SET_POT_A, on `pend_b` and `pair_b` (R171). The schedule is the model's
(log 7). -/
def Obligations.SetPotBIssuedThenApplied : Prop :=
  ∀ x : Word,
    decodeCommand (0x02#8 ++ x) = .setPotB x ∧
      (∀ s : State, exec (.setPotB x) s = .next { s with pendB := s.pendB ++ [x] }) ∧
      (∀ (s : State) (rest : List Word),
        s.nextMove = some (.apply .potB) → s.pendB = x :: rest →
          step s = .next
            { s with
              schedule := s.schedule.tail, pendB := rest
              pairB := BitVec.ofNat 32
                (if x.toInt < 0 then 0 else if 470000 < x.toInt then 470000 else x.toNat) })

/-- SET_GAIN: op 0x03; ISSUE to `pend_gain`; APPLY stores +0.0 for a NaN, for a word with the sign bit and
for +0.0, 1.0 for 1.0 and above, and the word itself otherwise (R9, R172). The schedule is the model's
(log 7). -/
def Obligations.SetGainIssuedThenApplied : Prop :=
  ∀ u : Word,
    decodeCommand (0x03#8 ++ u) = .setGain u ∧
      (∀ s : State, exec (.setGain u) s = .next { s with pendGain := s.pendGain ++ [u] }) ∧
      (∀ (s : State) (rest : List Word),
        s.nextMove = some (.apply .gain) → s.pendGain = u :: rest →
          step s = .next
            { s with
              schedule := s.schedule.tail, pendGain := rest
              gain :=
                if 0x7F800000 < u.toNat % 2 ^ 31 then 0x00000000#32
                else if 2 ^ 31 ≤ u.toNat ∨ u.toNat = 0 then 0x00000000#32
                else if 0x3F800000 ≤ u.toNat then 0x3F800000#32
                else u })

/-- SET_GESTURE: op 0x04; ISSUE to `pend_gesture`; APPLY writes bit 0 of the operand (R173).
The schedule is the model's (log 7). -/
def Obligations.SetGestureIssuedThenApplied : Prop :=
  ∀ g : Word,
    decodeCommand (0x04#8 ++ g) = .setGesture g ∧
      (∀ s : State, exec (.setGesture g) s = .next { s with pendGesture := s.pendGesture ++ [g] }) ∧
      (∀ (s : State) (rest : List Word),
        s.nextMove = some (.apply .gesture) → s.pendGesture = g :: rest →
          step s = .next
            { s with
              schedule := s.schedule.tail, pendGesture := rest
              gestureActive := decide (g.toNat % 2 = 1) })

/-- RESERVED: every command word with op 0x00 or 0x07 to 0xFF, in any state, changes nothing and raises
nothing; so do all the reserved forms of the table (R79, R174). -/
def Obligations.ReservedCommandsChangeNothing : Prop :=
  (∀ (op : BitVec 8) (x : Word) (s : State), (op.toNat = 0 ∨ 7 ≤ op.toNat) →
      exec (decodeCommand (op ++ x)) s = .next s) ∧
    (∀ (x : Word) (s : State), exec (.reserved00 x) s = .next s ∧ exec (.reserved07 x) s = .next s) ∧
    (∀ (l : BitVec 3) (x : Word) (s : State), exec (.reserved08 l x) s = .next s) ∧
    (∀ (l : BitVec 4) (x : Word) (s : State), exec (.reserved10 l x) s = .next s) ∧
    (∀ (l : BitVec 5) (x : Word) (s : State), exec (.reserved20 l x) s = .next s) ∧
    (∀ (l : BitVec 6) (x : Word) (s : State), exec (.reserved40 l x) s = .next s) ∧
    (∀ (l : BitVec 7) (x : Word) (s : State), exec (.reserved80 l x) s = .next s)

/-- A torn pair is a legal run (R60, R223; V-C9 of 95_test_vectors.md): with one write to each pot waiting,
in any state, either one alone, both, or neither may have applied by the time no other step has happened.
The schedule that makes it so is the model's free choice (log 7). -/
def Obligations.EveryTornPairIsReachable : Prop :=
  ∀ (s : State) (x y : Word), s.pendA = [x] → s.pendB = [y] → ∀ applyA applyB : Bool,
    ∃ (ms : List Move) (t : State),
      runSteps ms.length { s with schedule := ms } = .next t ∧
        t = { s with
              schedule := []
              pairA := if applyA then potOperand x else s.pairA
              pendA := if applyA then [] else [x]
              pairB := if applyB then potOperand y else s.pairB
              pendB := if applyB then [] else [y] }

/-- The pending FIFOs drain: within a bounded number of steps from any state every one of them is empty, unless
a step before that was refused (R60's weak fairness). A RESET taken on the way discards the writes that
wait (R220). The bound rests on the model's finite schedule and its eager default (log 7, log 8). -/
def Obligations.WaitingWritesDrain : Prop :=
  ∀ s : State, ∃ n, n ≤ 2 * s.schedule.length + waitingWrites s ∧
    ((∃ t, runSteps n s = .next t ∧ ∀ f : Fifo, t.pending f = []) ∨ ∃ r, runSteps n s = .refused r)

/-- No write is lost: in every step a FIFO keeps what waits in it and may take more at its end, or it gives up
its head to APPLY, which writes that operand's value to its register, or RESET discards it (R60, R220). -/
def Obligations.WaitingWriteLeavesOnlyByApplyOrReset : Prop :=
  ∀ (s t : State) (f : Fifo), step s = .next t →
    (∃ more, t.pending f = s.pending f ++ more) ∨
      (s.nextMove = some (.apply f) ∧ ∃ x rest, s.pending f = x :: rest ∧ t.pending f = rest ∧
        (f = .potA → t.pairA = potOperand x) ∧ (f = .potB → t.pairB = potOperand x) ∧
        (f = .gain → t.gain = gainOperand x) ∧ (f = .gesture → t.gestureActive = gestureOperand x)) ∨
      (TakesReset s ∧ t.pending f = [])

/-! ### Sample rate (R140 to R142) -/

/-- SET_SAMPLE_RATE: op 0x05; between blocks with nothing held, a zero rate is ignored, a first rate keeps
both counters, any other rate rescales both to nearest, a half up, saturating, and nothing else changes
(R140). That nothing is held is the model's order of issue (log 9). -/
def Obligations.SetSampleRateRescales : Prop :=
  ∀ r : Word,
    decodeCommand (0x05#8 ++ r) = .setSampleRate r ∧
      ∀ s : State, s.busy = false → s.held = [] →
        exec (.setSampleRate r) s = .next
          (if r.toNat = 0 then s
          else if s.sampleRate.toNat = 0 then { s with sampleRate := r }
          else
            { s with
              sampleRate := r
              astableRun := BitVec.ofNat 32
                (min ((2 * (s.astableRun.toNat * r.toNat) + s.sampleRate.toNat) / (2 * s.sampleRate.toNat))
                  (2 ^ 32 - 1))
              monostableRun := BitVec.ofNat 32
                (min ((2 * (s.monostableRun.toNat * r.toNat) + s.sampleRate.toNat) / (2 * s.sampleRate.toNat))
                  (2 ^ 32 - 1)) })

/-- A rate change never falls inside a block (R141): issued during one, or behind a command already held, it
is held and nothing else changes; no step taken during a block changes the rate or drops a held command;
and when idle the oldest held rate change is what SET_SAMPLE_RATE is with nothing held. The held list is
the model's (log 9). -/
def Obligations.RateChangeWaitsForEnd : Prop :=
  (∀ (r : Word) (s : State), s.busy = true ∨ s.held ≠ [] →
      exec (.setSampleRate r) s = .next { s with held := s.held ++ [.setSampleRate r] }) ∧
    (∀ s t : State, s.busy = true → step s = .next t →
      t.sampleRate = s.sampleRate ∧ ∃ more, t.held = s.held ++ more) ∧
    (∀ (r : Word) (s : State) (rest : List HeldCommand), s.nextMove = some .engine → s.busy = false →
      s.held = .setSampleRate r :: rest →
        ∃ t, exec (.setSampleRate r) { s with held := [], schedule := s.schedule.tail } = .next t ∧
          step s = .next { t with held := rest })

/-- Doubling the rate exactly doubles each counter, saturating, and leaves the pair (R142 (a), (b)). -/
def Obligations.DoublingTheRateDoublesCounters : Prop :=
  ∀ (r : Word) (s : State), s.busy = false → s.held = [] → s.sampleRate ≠ 0#32 →
    r.toNat = 2 * s.sampleRate.toNat →
      ∃ t, exec (.setSampleRate r) s = .next t ∧
        t.astableRun.toNat = min (2 * s.astableRun.toNat) (2 ^ 32 - 1) ∧
        t.monostableRun.toNat = min (2 * s.monostableRun.toNat) (2 ^ 32 - 1) ∧
        t.pairA = s.pairA ∧ t.pairB = s.pairB

/-- A rescaled counter is within half a sample of the exact value, unless it saturated (R142 (c)). -/
def Obligations.RescaleWithinHalfASample : Prop :=
  ∀ (r : Word) (s : State), s.busy = false → s.held = [] → s.sampleRate ≠ 0#32 → r ≠ 0#32 →
    ∃ t, exec (.setSampleRate r) s = .next t ∧
      2 * s.sampleRate.toNat * t.astableRun.toNat
        ≤ 2 * (s.astableRun.toNat * r.toNat) + s.sampleRate.toNat ∧
      (t.astableRun.toNat = 2 ^ 32 - 1 ∨
        2 * (s.astableRun.toNat * r.toNat)
          < 2 * s.sampleRate.toNat * t.astableRun.toNat + s.sampleRate.toNat) ∧
      2 * s.sampleRate.toNat * t.monostableRun.toNat
        ≤ 2 * (s.monostableRun.toNat * r.toNat) + s.sampleRate.toNat ∧
      (t.monostableRun.toNat = 2 ^ 32 - 1 ∨
        2 * (s.monostableRun.toNat * r.toNat)
          < 2 * s.sampleRate.toNat * t.monostableRun.toNat + s.sampleRate.toNat)

/-! ### Event operations (R121 to R124) -/

/-- NOTE_ON: status nibble 9 with a note below 128; bit `n mod 32` of word `n div 32` is set, the pair
becomes the note's table entry, and nothing else changes (R110, R111, R121). -/
def Obligations.NoteOnSetsNoteAndPair : Prop :=
  ∀ (n : Note) (v : Byte) (c : BitVec 4) (o : Word),
    decodeEvent (0x03#8 ++ v ++ (0#1 ++ n) ++ (0x9#4 ++ c) ++ o) = .noteOn n v c o ∧
      ∀ s : State, ∃ t,
        exec (.noteOn n v c o) s = .next t ∧
          (∀ j : BitVec 2, t.notes.word j =
            if j.toNat = n.toNat / 32 then s.notes.word j ||| (1#32 <<< (n.toNat % 32))
            else s.notes.word j) ∧
          t.pairA.toNat = (Config.noteTable[n.toNat]'n.isLt).a.val ∧
          t.pairB.toNat = (Config.noteTable[n.toNat]'n.isLt).b.val ∧
          t = { s with notes := t.notes, pairA := t.pairA, pairB := t.pairB }

/-- NOTE_OFF: status nibble 8 with a note below 128; bit `n mod 32` of word `n div 32` is cleared; while a
note stays held the pair becomes the lowest held note's entry, else it is kept; nothing else changes (R110,
R112, R113, R122). -/
def Obligations.NoteOffClearsNoteAndRetunes : Prop :=
  ∀ (n : Note) (v : Byte) (c : BitVec 4) (o : Word),
    decodeEvent (0x03#8 ++ v ++ (0#1 ++ n) ++ (0x8#4 ++ c) ++ o) = .noteOff n v c o ∧
      ∀ s : State, ∃ t,
        exec (.noteOff n v c o) s = .next t ∧
          (∀ j : BitVec 2, t.notes.word j =
            if j.toNat = n.toNat / 32 then s.notes.word j &&& ~~~(1#32 <<< (n.toNat % 32))
            else s.notes.word j) ∧
          ((∀ m : Note, t.notes.held m = false) → t.pairA = s.pairA ∧ t.pairB = s.pairB) ∧
          (∀ m : Note, t.notes.held m = true → (∀ k : Note, t.notes.held k = true → m.toNat ≤ k.toNat) →
            t.pairA.toNat = (Config.noteTable[m.toNat]'m.isLt).a.val ∧
              t.pairB.toNat = (Config.noteTable[m.toNat]'m.isLt).b.val) ∧
          t = { s with notes := t.notes, pairA := t.pairA, pairB := t.pairB }

/-- PITCH_BEND: status nibble 0xE with both data bytes below 128; a no-op with no note held; else `pair_b`
is the floor of the exact value around the lowest held note's table `b`, and nothing else changes (R78,
R113, R123). -/
def Obligations.PitchBendMovesPairB : Prop :=
  ∀ (v : BendValue) (c : BitVec 4) (o : Word),
    decodeEvent (0x03#8 ++ (0#1 ++ v.extractLsb' 7 7) ++ (0#1 ++ v.extractLsb' 0 7) ++ (0xE#4 ++ c) ++ o)
        = .pitchBend v c o ∧
      (∀ s : State, (∀ m : Note, s.notes.held m = false) → exec (.pitchBend v c o) s = .next s) ∧
      (∀ (s : State) (m : Note), s.notes.held m = true →
        (∀ k : Note, s.notes.held k = true → m.toNat ≤ k.toNat) →
          exec (.pitchBend v c o) s = .next
            { s with
              pairB := BitVec.ofNat 32
                (if 8192 ≤ v.toNat then
                  (Config.noteTable[m.toNat]'m.isLt).b.val
                    - ((v.toNat - 8192) * (Config.noteTable[m.toNat]'m.isLt).b.val + 8191) / 8192
                else
                  (Config.noteTable[m.toNat]'m.isLt).b.val
                    + (8192 - v.toNat) * (470000 - (Config.noteTable[m.toNat]'m.isLt).b.val) / 8192) })

/-- IGNORED: a record that matches no row of higher priority decodes to IGNORED and changes nothing; as a
due record of a block it only moves the cursor (R124). The schedule is the model's (log 7). -/
def Obligations.IgnoredRecordsChangeNothing : Prop :=
  ∀ (a b c d : Byte) (o : Word), (Instr.ignored a b c d o).wellFormed = true →
    decodeEvent (a ++ b ++ c ++ d ++ o) = .ignored a b c d o ∧
      (∀ s : State, exec (.ignored a b c d o) s = .next s) ∧
      (∀ s : State, s.nextMove = some .engine → s.busy = true → s.sampleIdx < s.blkLen →
        s.evbuf[s.eventIdx.toNat]? = some (a ++ b ++ c ++ d ++ o) → o ≤ s.sampleIdx →
          step s = .next { s with eventIdx := s.eventIdx + 1#32, schedule := s.schedule.tail })

/-- Two records with the same `nbytes`, the same status nibble and the same `data1`, and for a bend the same
`data2`, decode to operations that do the same to every state: the velocity, the channel and the offset
never change what a record does (R76, R120). -/
def Obligations.VelocityChannelOffsetNotRead : Prop :=
  ∀ (nbytes data2 data2' data1 status status' : Byte) (o o' : Word) (s : State),
    status.toNat / 16 = status'.toNat / 16 → (status.toNat / 16 = 0xE → data2 = data2') →
      exec (decodeEvent (nbytes ++ data2 ++ data1 ++ status ++ o)) s =
        exec (decodeEvent (nbytes ++ data2' ++ data1 ++ status' ++ o')) s

/-- After a note is cleared, and so after the lowest one is, NS_LOWEST is the smallest note still held, or
`NONE` = 128 if none is (R113, R115 (b), (c)). -/
def Obligations.LowestAfterClearIsNextSmallest : Prop :=
  ∀ (ns : NoteSet) (n : Note),
    ((ns.clear n).lowest = 128 ↔ ∀ m : Note, ns.held m = true → m = n) ∧
      ∀ m : Note, ((ns.clear n).lowest = m.toNat ↔
        ns.held m = true ∧ m ≠ n ∧ ∀ k : Note, ns.held k = true → k ≠ n → m.toNat ≤ k.toNat)

/-- A note table loads exactly when it has 128 entries with both pots in [0, 470000], and then entry `n` is
what was given (R31, R201). `ref_pitch` is carried as a number (log 3). -/
def Obligations.NoteTableLoadsOnlyIfWellFormed : Prop :=
  ∀ raw : List (Nat × Nat × Nat),
    ((Config.loadNoteTable raw).isSome = true ↔
        raw.length = 128 ∧ ∀ e ∈ raw, e.1 ≤ 470000 ∧ e.2.1 ≤ 470000) ∧
      ∀ t : Config.NoteTable, Config.loadNoteTable raw = some t →
        ∀ n : Note, raw[n.toNat]? =
          some ((tableRead t n).a.val, (tableRead t n).b.val, (tableRead t n).refPitch.raw)

/-! ### The timer circuit (R100 to R105) -/

/-- Each derived timing is the integer nearest to its exact rational, a half rounding up (R101, R102,
R103). -/
def Obligations.RetuneRoundsToNearest : Prop :=
  ∀ a b sr : Nat,
    (2 * 10 ^ 11 * (retune a b sr).astableHigh ≤ 2 * (693 * (a + 1000) * sr) + 10 ^ 11 ∧
        2 * (693 * (a + 1000) * sr) + 10 ^ 11 < 2 * 10 ^ 11 * ((retune a b sr).astableHigh + 1)) ∧
      (2 * 10 ^ 11 * (retune a b sr).astableLow ≤ 2 * (693 * a * sr) + 10 ^ 11 ∧
        2 * (693 * a * sr) + 10 ^ 11 < 2 * 10 ^ 11 * ((retune a b sr).astableLow + 1)) ∧
      (2 * 10 ^ 10 * (retune a b sr).monostableHigh ≤ 2 * (693 * b * sr) + 10 ^ 10 ∧
        2 * (693 * b * sr) + 10 ^ 10 < 2 * 10 ^ 10 * ((retune a b sr).monostableHigh + 1))

/-- Each timing is non-decreasing in its pot and in the rate, and astable_high is at least astable_low
(R105 (b), (c)). -/
def Obligations.RetuneIsMonotone : Prop :=
  ∀ a a' b b' sr sr' : Nat, a ≤ a' → b ≤ b' → sr ≤ sr' →
    (retune a b sr).astableHigh ≤ (retune a' b' sr').astableHigh ∧
      (retune a b sr).astableLow ≤ (retune a' b' sr').astableLow ∧
      (retune a b sr).monostableHigh ≤ (retune a' b' sr').monostableHigh ∧
      (retune a b sr).astableLow ≤ (retune a b sr).astableHigh

/-- In range the timings fit: `astable_high + astable_low < 2^25` and `monostable_high < 2^28` (R105
(e)). -/
def Obligations.RetuneFitsItsWidths : Prop :=
  ∀ a b sr : Nat, a ≤ 470000 → b ≤ 470000 → sr < 2 ^ 32 →
    (retune a b sr).astableHigh + (retune a b sr).astableLow < 2 ^ 25 ∧
      (retune a b sr).monostableHigh < 2 ^ 28

/-! ### The Render Step (R150, R151, R153) -/

/-- RENDER_SAMPLE and its OutWrite, as R150 and R151 order them, with the timings that `retune` gives for the
registers of this step (R104): wrap, release and re-trigger on the value the wrap left, both counters
advance and saturate, and the mux emits silence, `gain` or its negation on the level step 2 left; nothing
else changes but `i`. The schedule entry is the model's (log 7). -/
def Obligations.RenderStepFollowsR150 : Prop :=
  ∀ (s : State) (ah al mh a1 m1 : Nat) (level : Bool),
    s.nextMove = some .engine → s.busy = true → s.sampleIdx < s.blkLen → s.dueEvent = none →
    retune s.pairA.toNat s.pairB.toNat s.sampleRate.toNat = ⟨ah, al, mh⟩ →
    a1 = (if ah + al ≤ s.astableRun.toNat then 0 else s.astableRun.toNat) →
    level = (if mh ≤ s.monostableRun.toNat then decide (a1 = ah) else s.outputLevel) →
    m1 = (if mh ≤ s.monostableRun.toNat ∧ a1 = ah then 0 else s.monostableRun.toNat) →
      step s = .next
        { s with
          schedule := s.schedule.tail
          astableRun := BitVec.ofNat 32 (min (a1 + 1) (2 ^ 32 - 1))
          monostableRun := BitVec.ofNat 32 (min (m1 + 1) (2 ^ 32 - 1))
          outputLevel := level
          sampleIdx := s.sampleIdx + 1#32
          out := s.out ++
            [if s.notes.word 0#2 = 0#32 ∧ s.notes.word 1#2 = 0#32 ∧ s.notes.word 2#2 = 0#32
                ∧ s.notes.word 3#2 = 0#32 ∧ s.gestureActive = false then 0x00000000#32
             else if level = true then s.gain
             else s.gain ^^^ 0x80000000#32] }

/-- With no note held and no gesture, whatever the counters, the level, the pair and the gain hold, a step
writes no sample but exact silence (R151). -/
def Obligations.SilenceIsExactWhateverTheCounters : Prop :=
  ∀ s t : State, (∀ m : Note, s.notes.held m = false) → s.gestureActive = false → step s = .next t →
    t.out = s.out ∨ t.out = [] ∨ t.out = s.out ++ [0x00000000#32]

/-- What `exec` of an operation writes, RESET apart: no operation's meaning writes `gain`, `gesture_active` or
`output_level`; the counters and the rate are written by SET_SAMPLE_RATE only, the notes and `pair_a` by
NOTE_ON and NOTE_OFF only, `pair_b` by those and PITCH_BEND only, the block progress by RENDER_BLOCK only
(R21 to R29, R32). The steps that are no operation (APPLY, RENDER_SAMPLE, END) are in
EachRegisterHasItsWriters. -/
def Obligations.OnlyTheNamedOperationsWrite : Prop :=
  ∀ (i : Instr) (s t : State), exec i s = .next t → i ≠ .reset →
    (t.gain = s.gain ∧ t.gestureActive = s.gestureActive ∧ t.outputLevel = s.outputLevel
        ∧ t.finished = s.finished) ∧
      ((∀ r, i ≠ .setSampleRate r) →
        t.sampleRate = s.sampleRate ∧ t.astableRun = s.astableRun ∧ t.monostableRun = s.monostableRun) ∧
      ((∀ n v c o, i ≠ .noteOn n v c o ∧ i ≠ .noteOff n v c o) →
        t.notes = s.notes ∧ t.pairA = s.pairA ∧ ((∀ v c o, i ≠ .pitchBend v c o) → t.pairB = s.pairB)) ∧
      ((∀ l, i ≠ .renderBlock l) →
        t.busy = s.busy ∧ t.blkLen = s.blkLen ∧ t.sampleIdx = s.sampleIdx ∧ t.eventIdx = s.eventIdx
          ∧ t.evbuf = s.evbuf ∧ t.out = s.out)

/-- Over every step: each register changes only in the steps the spec names as its writers (R21 to R29, R32,
R154, R206): `gain` and `gesture_active` in APPLY of their FIFO, the notes in DISPATCH of a note, the pair
in those, in APPLY of a pot and `pair_b` also in DISPATCH of a bend, the rate in a rate change, the counters
in that and in RENDER_SAMPLE, `output_level` in RENDER_SAMPLE, the block progress in START, its own steps
and END; and all of them in RESET. That END and RESET clear fields without a value while idle is the
model's (log 6). -/
def Obligations.EachRegisterHasItsWriters : Prop :=
  ∀ s t : State, step s = .next t →
    (t.gain ≠ s.gain → s.nextMove = some (.apply .gain) ∨ TakesReset s) ∧
    (t.gestureActive ≠ s.gestureActive → s.nextMove = some (.apply .gesture) ∨ TakesReset s) ∧
    (t.notes ≠ s.notes → DispatchesNote s ∨ TakesReset s) ∧
    (t.pairA ≠ s.pairA → s.nextMove = some (.apply .potA) ∨ DispatchesNote s ∨ TakesReset s) ∧
    (t.pairB ≠ s.pairB →
      s.nextMove = some (.apply .potB) ∨ DispatchesNote s ∨ DispatchesBend s ∨ TakesReset s) ∧
    (t.sampleRate ≠ s.sampleRate → ChangesRate s ∨ TakesReset s) ∧
    (t.astableRun ≠ s.astableRun ∨ t.monostableRun ≠ s.monostableRun →
      RendersSample s ∨ ChangesRate s ∨ TakesReset s) ∧
    (t.outputLevel ≠ s.outputLevel → RendersSample s ∨ TakesReset s) ∧
    (t.busy ≠ s.busy → StartsBlock s ∨ EndsBlock s) ∧
    (t.blkLen ≠ s.blkLen → StartsBlock s ∨ TakesReset s) ∧
    (t.sampleIdx ≠ s.sampleIdx → StartsBlock s ∨ RendersSample s ∨ TakesReset s) ∧
    (t.eventIdx ≠ s.eventIdx → StartsBlock s ∨ (∃ i, Dispatches s i) ∨ TakesReset s) ∧
    (t.evbuf ≠ s.evbuf → StartsBlock s ∨ EndsBlock s ∨ TakesReset s)

/-- `output_level` changes only in a step that writes a sample, or in RESET (R26). -/
def Obligations.LevelChangesOnlyWithASample : Prop :=
  ∀ s t : State, step s = .next t → t.outputLevel ≠ s.outputLevel →
    (s.busy = true ∧ ∃ v, t.out = s.out ++ [v]) ∨
      (s.busy = false ∧ ∃ rest, s.port = .reset :: rest ∧ t.port = rest)

/-- R153 (a): with fixed timings, `astable_low > 0` and `monostable_high >= 1`, from a re-trigger on the
level is high for the first `mh` samples of each period of `P * ceil(mh / P)` samples and low for the
rest. -/
def Obligations.PulseTrainHasItsPeriod : Prop :=
  ∀ s : State, RegistersLegal s → 0 < s.timings.astableLow → 1 ≤ s.timings.monostableHigh →
    s.astableRun.toNat = s.timings.astableHigh → s.timings.monostableHigh ≤ s.monostableRun.toNat →
      ∀ (n P : Nat), P = s.timings.astableHigh + s.timings.astableLow →
        sampleLevel (renderSample^[n] s) =
          decide (n % (P * ((s.timings.monostableHigh + P - 1) / P)) < s.timings.monostableHigh)

/-- R153 (b): with fixed timings, `astable_low > 0` and `monostable_high = 0`, from a re-trigger on the
level is high for one sample in each period of `P` samples. -/
def Obligations.BarePulsesHaveTheAstablePeriod : Prop :=
  ∀ s : State, RegistersLegal s → 0 < s.timings.astableLow → s.timings.monostableHigh = 0 →
    s.astableRun.toNat = s.timings.astableHigh →
      ∀ n : Nat,
        sampleLevel (renderSample^[n] s) =
          decide (n % (s.timings.astableHigh + s.timings.astableLow) = 0)

/-- R153 (c) and (d): with `P = 0` a level once high stays high; with `astable_low = 0` and
`astable_high > 0` no sample re-triggers, and once the monostable is released the level stays low. -/
def Obligations.LevelFreezesWithoutAGrid : Prop :=
  (∀ s : State, s.timings.astableHigh + s.timings.astableLow = 0 → s.outputLevel = true →
      ∀ n : Nat, sampleLevel (renderSample^[n] s) = true) ∧
    (∀ s : State, s.timings.astableLow = 0 → 0 < s.timings.astableHigh →
      (∀ n : Nat, sampleRetriggers (renderSample^[n] s) = false) ∧
        (s.timings.monostableHigh ≤ s.monostableRun.toNat →
          ∀ n : Nat, sampleLevel (renderSample^[n] s) = false))

/-! ### Blocks (R61, R125 to R128, R152) -/

/-- RENDER_BLOCK: op 0x06; between blocks with nothing held it is START, with the next event list of the
event port (R152). The event port, the held list and the refusal of a list too long for the cursor are the
model's (log 5, log 9, log 11). -/
def Obligations.RenderBlockStarts : Prop :=
  ∀ l : Word,
    decodeCommand (0x06#8 ++ l) = .renderBlock l ∧
      ∀ s : State, s.busy = false → s.held = [] → (s.eventPort.headD []).length < 2 ^ 32 →
        exec (.renderBlock l) s = .next
          { s with
            busy := true, blkLen := l, evbuf := s.eventPort.headD [], sampleIdx := 0#32, eventIdx := 0#32
            eventPort := s.eventPort.tail, out := [] }

/-- END: when `i` has reached `L` the block's step delivers its words and the return value `L`, clears
`busy` and discards the records left over (R127, R152). Where the words are kept is the model's (log 6,
log 12). -/
def Obligations.BlockEndDeliversItsWords : Prop :=
  ∀ s : State, s.nextMove = some .engine → s.busy = true → s.blkLen ≤ s.sampleIdx →
    step s = .next
      { s with
        schedule := s.schedule.tail, busy := false, evbuf := [], out := []
        finished := s.finished ++ [{ samples := s.out, written := s.blkLen }] }

/-- A block with no control write waiting runs to its END, never refused, and delivers exactly `L` words
and the return value `L` ("no partial-block failure mode", R152), within one step per sample and per
record. The run rests on the eager schedule (log 8). -/
def Obligations.BlockRunsToItsEnd : Prop :=
  ∀ s : State, ProgressLegal s → s.busy = true → s.schedule = [] → (∀ f : Fifo, s.pending f = []) →
    ∃ n, n ≤ (s.blkLen.toNat - s.sampleIdx.toNat) + (s.evbuf.length - s.eventIdx.toNat) + 1 ∧
      ∃ (t : State) (words : List Word),
        runSteps n s = .next t ∧ t.busy = false ∧
          t.finished = s.finished ++ [{ samples := s.out ++ words, written := s.blkLen }] ∧
          (s.out ++ words).length = s.blkLen.toNat ∧ t.port = s.port ∧ t.held = s.held

/-- During a block, or behind a command already held, a RENDER_BLOCK is held and nothing else changes; no
step of a block takes effect of a held command; and when idle the oldest held RENDER_BLOCK is what it is
with nothing held (R61). The held list is the model's (log 9), and so is the bound on the list (log 5). -/
def Obligations.RenderBlockWaitsForEnd : Prop :=
  (∀ (l : Word) (s : State), s.busy = true ∨ s.held ≠ [] →
      exec (.renderBlock l) s = .next { s with held := s.held ++ [.renderBlock l] }) ∧
    (∀ s t : State, s.busy = true → step s = .next t → ∃ more, t.held = s.held ++ more) ∧
    (∀ (l : Word) (s : State) (rest : List HeldCommand), s.nextMove = some .engine → s.busy = false →
      s.held = .renderBlock l :: rest → (s.eventPort.headD []).length < 2 ^ 32 →
        ∃ t, exec (.renderBlock l) { s with held := [], schedule := s.schedule.tail } = .next t ∧
          step s = .next { t with held := rest })

/-- A block launched with its events in order (R128) loses no event and delays none (R126, R127): START
makes it on time, every step keeps it on time, and when `i` reaches `L` no record is left. That nothing is
held and that the list has fewer than 2^32 records are the model's (log 5, log 9). -/
def Obligations.OrderedBlockLosesNoEvent : Prop :=
  (∀ (l : Word) (s : State), s.busy = false → s.held = [] → (s.eventPort.headD []).length < 2 ^ 32 →
      EventsInOrder l (s.eventPort.headD []) →
        ∃ t, exec (.renderBlock l) s = .next t ∧ t.busy = true ∧ OnTime t) ∧
    (∀ s t : State, ProgressLegal s → OnTime s → s.busy = true → step s = .next t → OnTime t) ∧
    (∀ s : State, OnTime s → s.busy = true → s.blkLen ≤ s.sampleIdx → s.eventRead = none)

/-! ### Reset (R220, R221) -/

/-- RESET between blocks sets every element of the state to its reset value; the derived timings are then
(0, 0, 0) (R220). -/
def Obligations.ResetSetsEveryElement : Prop :=
  ∀ s : State, s.busy = false →
    ∃ t, exec .reset s = .next t ∧
      t.pairA.toNat = Config.defaultA.val ∧ t.pairB.toNat = Config.defaultB.val ∧
      t.sampleRate = 0#32 ∧ t.astableRun = 0#32 ∧ t.monostableRun = 0#32 ∧ t.outputLevel = false ∧
      (∀ j : BitVec 2, t.notes.word j = 0#32) ∧ t.gain.toNat = Config.defaultGain.val ∧
      t.gestureActive = false ∧ t.busy = false ∧
      t.pendA = [] ∧ t.pendB = [] ∧ t.pendGain = [] ∧ t.pendGesture = [] ∧
      t.timings = ⟨0, 0, 0⟩

/-- RESET leaves what the host and the agents hold: the port, the event port, the held commands, the
schedule and the finished blocks. This is the model's choice (log 10). -/
def Obligations.ResetKeepsTheInterfaces : Prop :=
  ∀ s : State, s.busy = false →
    ∃ t, exec .reset s = .next t ∧ t.port = s.port ∧ t.eventPort = s.eventPort ∧ t.held = s.held ∧
      t.schedule = s.schedule ∧ t.finished = s.finished ∧ t.out = []

/-- RESET during a block is refused and gives the run no meaning (R221). -/
def Obligations.ResetDuringABlockIsRefused : Prop :=
  ∀ s : State, s.busy = true → exec .reset s = .refused .resetWhileBusy

/-! ### The whole machine -/

/-- The invariant holds of the state after reset, whatever the open parameters are. -/
def Obligations.ResetStateIsLegal : Prop := Inv State.reset ∧ OnTime State.reset

/-- Every step keeps the invariant, under every schedule: the pair and the gain stay in range (R36), the
block progress stays consistent (R32, R53), and every block ever delivered has exactly as many words as it
returns, each of them silence or of magnitude at most 1.0 (R81, R152). -/
def Obligations.StepKeepsTheInvariant : Prop :=
  ∀ s t : State, Inv s → step s = .next t → Inv t

/-- No step faults, and a step is refused only for RESET during a block, for a command word of the wrong
size, or for an event list the cursor cannot index (R200, R201). The last is the model's (log 5). -/
def Obligations.OnlyTheNamedRefusals : Prop :=
  (∀ (s : State) (f : Fault), step s ≠ .fault f) ∧
    ∀ (s : State) (r : Refusal), step s = .refused r →
      (r = .resetWhileBusy ∧ s.busy = true ∧ ∃ rest, s.port = .reset :: rest) ∨
        (∃ (bytes : List Byte) (rest : List Arrival), s.port = .command bytes :: rest ∧ bytes.length ≠ 5 ∧
          r = .wrongSizeWord bytes.length) ∨
        (r = .tooManyEvents ∧ s.busy = false ∧ 2 ^ 32 ≤ (s.eventPort.headD []).length)

/-- With nothing issued, held or pending and no block in progress, all the state of the spec persists (R210,
R220). That such a machine answers a next state, and uses up a schedule entry, is the model's choice
(log 20). -/
def Obligations.IdleEngineWaits : Prop :=
  ∀ s : State, s.busy = false → s.held = [] → s.port = [] → (∀ f : Fifo, s.pending f = []) →
    step s = .next { s with schedule := s.schedule.tail }

/-- Only END adds to the record of finished blocks, and it adds the finished block's words with its return
value. That the observation of R211 is this field, filled at END, is the model's choice (log 12). -/
def Obligations.ObservationGrowsOnlyAtEnd : Prop :=
  ∀ s t : State, step s = .next t →
    t.finished = s.finished ∨
      (s.busy = true ∧ s.blkLen ≤ s.sampleIdx ∧ t.busy = false ∧
        t.finished = s.finished ++ [{ samples := s.out, written := s.blkLen }])

/-! ### The assembler (R83, R84) -/

/-- Every command line and pseudo-instruction for one assembles, with every operand in its range, to command
words that decode to the operation the line names with the operand as written, signed for the pots; a
command at the port decodes as its word; `render <L>` opens a block of length L, whose RENDER_BLOCK word is
op 0x06 with L, `render <L>` with no events also closes it, and `reset` is the reset input, which decodes to
RESET; and `bend @o s` assembles to one record that decodes to PITCH_BEND of `s + 8192` on channel 0 (R83,
R84). What arrives at the port for each of these is in EveryAssembledBlockHasItsList. -/
def Obligations.AssembledLinesDecode : Prop :=
  (∀ (op : BitVec 8) (x : Word), decodeArrival (commandArrival op x) = .ok (decodeCommand (op ++ x))) ∧
    (∀ (op : Byte) (n : Word),
      expandLine (.cmd op.toNat n.toNat) = some [.command op n] ∧
        (∃ c x, expandLine (.rate n.toNat) = some [.command c x] ∧ decodeCommand (c ++ x) = .setSampleRate n) ∧
        (∃ c x, expandLine (.gain n.toNat) = some [.command c x] ∧ decodeCommand (c ++ x) = .setGain n) ∧
        (∃ c x, expandLine (.gesture n.toNat) = some [.command c x] ∧ decodeCommand (c ++ x) = .setGesture n)) ∧
    (∀ a b : Word,
      (∃ c x, expandLine (.potA a.toInt) = some [.command c x] ∧ decodeCommand (c ++ x) = .setPotA a) ∧
        (∃ c x, expandLine (.potB a.toInt) = some [.command c x] ∧ decodeCommand (c ++ x) = .setPotB a) ∧
        (∃ c x d y, expandLine (.pair a.toInt b.toInt) = some [.command c x, .command d y] ∧
          decodeCommand (c ++ x) = .setPotA a ∧ decodeCommand (d ++ y) = .setPotB b)) ∧
    (∃ c x, expandLine .mute = some [.command c x] ∧ decodeCommand (c ++ x) = .setGesture 0#32) ∧
    (∀ l : Word,
      expandLine (.render l.toNat) = some [.openBlock l] ∧
        expandLine (.renderEmpty l.toNat) = some [.openBlock l, .closeBlock] ∧
        decodeArrival (commandArrival 0x06#8 l) = .ok (.renderBlock l)) ∧
    (expandLine .close = some [.closeBlock] ∧ expandLine .reset = some [.reset] ∧
      decodeArrival .reset = .ok .reset) ∧
    (∀ o s : Int, 0 ≤ o → o < 2 ^ 32 → -8192 ≤ s → s ≤ 8191 →
      ∃ r : EventRecord, expandLine (.bend o s) = some [.event r] ∧
        decodeEvent r = .pitchBend (BitVec.ofNat 14 (s + 8192).toNat) 0#4 (BitVec.ofNat 32 o.toNat))

/-- An event line assembles, with every field at every value, to the record of those fields; `on` and `off`
of a note to NOTE_ON and NOTE_OFF of it on channel 0, and `bendraw` to PITCH_BEND of its value on channel 0
(R83, R84). -/
def Obligations.AssembledEventLinesDecode : Prop :=
  (∀ (o : Word) (st d1 d2 nb : Byte),
      expandLine (.event o.toNat st.toNat d1.toNat d2.toNat nb.toNat) =
        some [.event (nb ++ d2 ++ d1 ++ st ++ o)]) ∧
    (∀ (o : Word) (n : Note) (v : Byte),
      (∃ r, expandLine (.on o.toNat n.toNat v.toNat) = some [.event r] ∧ decodeEvent r = .noteOn n v 0#4 o) ∧
        ∃ r, expandLine (.off o.toNat n.toNat v.toNat) = some [.event r] ∧ decodeEvent r = .noteOff n v 0#4 o) ∧
    (∀ (o : Word) (v : BendValue),
      ∃ r, expandLine (.bendraw o.toNat v.toNat) = some [.event r] ∧ decodeEvent r = .pitchBend v 0#4 o)

/-- What a program's lines bring to the two ports, line by line (R83): a `render` line with its event lines and
its closing line brings one RENDER_BLOCK of its length and one list of its events in order, a `render` with
no events and a `cmd 0x06` line one with the empty list; of the expanded lines, any other command brings its
word and no list, and `reset` the reset input; so in every assembled program there are as many event lists
as RENDER_BLOCKs. That a `cmd 0x06` line brings the empty list is the model's choice (log 19). -/
def Obligations.EveryAssembledBlockHasItsList : Prop :=
  (∀ (l : Word) (lines : List SourceLine) (es : List EventRecord) (rest : List SourceLine),
      expandAll lines = some (es.map .event) →
        assemble (.render l.toNat :: (lines ++ .close :: rest)) =
          (assemble rest).map fun p =>
            { arrivals := commandArrival 0x06#8 l :: p.arrivals, blocks := es :: p.blocks }) ∧
    (∀ (l : Word) (rest : List SourceLine),
      assemble (.renderEmpty l.toNat :: rest) =
        (assemble rest).map fun p =>
          { arrivals := commandArrival 0x06#8 l :: p.arrivals, blocks := [] :: p.blocks }) ∧
    (∀ (l : Word) (rest : List SourceLine),
      assemble (.cmd 0x06 l.toNat :: rest) =
        (assemble rest).map fun p =>
          { arrivals := commandArrival 0x06#8 l :: p.arrivals, blocks := [] :: p.blocks }) ∧
    (∀ (l : Word) (es : List EventRecord) (ls : List CoreLine),
      assembleCore none (.openBlock l :: (es.map .event ++ .closeBlock :: ls)) =
        (assembleCore none ls).map fun p =>
          { arrivals := commandArrival 0x06#8 l :: p.arrivals, blocks := es :: p.blocks }) ∧
    (∀ (op : BitVec 8) (x : Word) (ls : List CoreLine),
      assembleCore none (.command op x :: ls) =
        (assembleCore none ls).map fun p =>
          { arrivals := commandArrival op x :: p.arrivals
            blocks := if op.toNat = 6 then [] :: p.blocks else p.blocks }) ∧
    (∀ ls : List CoreLine,
      assembleCore none (.reset :: ls) =
        (assembleCore none ls).map fun p => { arrivals := .reset :: p.arrivals, blocks := p.blocks }) ∧
    (∀ (ls : List CoreLine) (p : Program), assembleCore none ls = some p →
      p.blocks.length = p.arrivals.countP Arrival.isRenderBlock) ∧
    (∀ (ls : List SourceLine) (p : Program), assemble ls = some p →
      p.blocks.length = p.arrivals.countP Arrival.isRenderBlock)
end

