-- ==== Sys2Proof/Laws/Encoding.lean ====
section
/-! SUPPORT. Arithmetic of serialised words and of concatenated fields (spec/20_memory.md R54; spec/30_encoding.md R71, R74). -/

namespace Sys2Proof

/-- A concatenation as a number: the high field shifted over the low one. -/
theorem toNat_append_eq {m n : Nat} (x : BitVec m) (y : BitVec n) :
    (x ++ y).toNat = 2 ^ n * x.toNat + y.toNat := by
  rw [BitVec.toNat_append, Nat.shiftLeft_eq, Nat.mul_comm,
    Nat.two_pow_add_eq_or_of_lt y.isLt]

theorem commandWord_toNat (op : BitVec 8) (x : Word) :
    (commandWord op x).toNat = 2 ^ 32 * op.toNat + x.toNat := by
  unfold commandWord; exact toNat_append_eq op x

theorem eventRecord_toNat (nb d2 d1 st : Byte) (o : Word) :
    (eventRecord nb d2 d1 st o).toNat =
      2 ^ 32 * (2 ^ 8 * (2 ^ 8 * (2 ^ 8 * nb.toNat + d2.toNat) + d1.toNat) + st.toNat) + o.toNat := by
  unfold eventRecord; simp only [toNat_append_eq]

/-- A mask that splits at bit `k` acts on the two parts separately. -/
theorem land_split (k a b m c : Nat) (hb : b < 2 ^ k) (hc : c < 2 ^ k) :
    (2 ^ k * a + b) &&& (2 ^ k * m + c) = 2 ^ k * (a &&& m) + (b &&& c) := by
  apply Nat.eq_of_testBit_eq
  intro i
  rw [Nat.testBit_and, Nat.testBit_two_pow_mul_add a hb, Nat.testBit_two_pow_mul_add m hc,
    Nat.testBit_two_pow_mul_add _ (Nat.lt_of_le_of_lt Nat.and_le_left hb)]
  split <;> simp

@[simp] theorem bytesOfNat_length (n w : Nat) : (bytesOfNat n w).length = n := by
  induction n generalizing w with
  | zero => rfl
  | succ n ih => simp [bytesOfNat, ih]

end Sys2Proof
end

