-- ==== Sys2Proof/Laws/State.lean ====
section
/-! SUPPORT. What every named update of State leaves in every field: one lemma per field per update, so that no later proof unfolds a record update. -/

namespace Sys2Proof.Machine

variable (s : State)

/-! ### setPair -/

@[simp] theorem setPair_pairA (a b : Word) : (s.setPair a b).pairA = a := rfl
@[simp] theorem setPair_pairB (a b : Word) : (s.setPair a b).pairB = b := rfl
@[simp] theorem setPair_sampleRate (a b : Word) : (s.setPair a b).sampleRate = s.sampleRate := rfl
@[simp] theorem setPair_astableRun (a b : Word) : (s.setPair a b).astableRun = s.astableRun := rfl
@[simp] theorem setPair_monostableRun (a b : Word) : (s.setPair a b).monostableRun = s.monostableRun := rfl
@[simp] theorem setPair_outputLevel (a b : Word) : (s.setPair a b).outputLevel = s.outputLevel := rfl
@[simp] theorem setPair_notes (a b : Word) : (s.setPair a b).notes = s.notes := rfl
@[simp] theorem setPair_gain (a b : Word) : (s.setPair a b).gain = s.gain := rfl
@[simp] theorem setPair_gestureActive (a b : Word) : (s.setPair a b).gestureActive = s.gestureActive := rfl
@[simp] theorem setPair_busy (a b : Word) : (s.setPair a b).busy = s.busy := rfl
@[simp] theorem setPair_blkLen (a b : Word) : (s.setPair a b).blkLen = s.blkLen := rfl
@[simp] theorem setPair_sampleIdx (a b : Word) : (s.setPair a b).sampleIdx = s.sampleIdx := rfl
@[simp] theorem setPair_eventIdx (a b : Word) : (s.setPair a b).eventIdx = s.eventIdx := rfl
@[simp] theorem setPair_evbuf (a b : Word) : (s.setPair a b).evbuf = s.evbuf := rfl
@[simp] theorem setPair_pendA (a b : Word) : (s.setPair a b).pendA = s.pendA := rfl
@[simp] theorem setPair_pendB (a b : Word) : (s.setPair a b).pendB = s.pendB := rfl
@[simp] theorem setPair_pendGain (a b : Word) : (s.setPair a b).pendGain = s.pendGain := rfl
@[simp] theorem setPair_pendGesture (a b : Word) : (s.setPair a b).pendGesture = s.pendGesture := rfl
@[simp] theorem setPair_port (a b : Word) : (s.setPair a b).port = s.port := rfl
@[simp] theorem setPair_eventPort (a b : Word) : (s.setPair a b).eventPort = s.eventPort := rfl
@[simp] theorem setPair_held (a b : Word) : (s.setPair a b).held = s.held := rfl
@[simp] theorem setPair_schedule (a b : Word) : (s.setPair a b).schedule = s.schedule := rfl
@[simp] theorem setPair_out (a b : Word) : (s.setPair a b).out = s.out := rfl
@[simp] theorem setPair_finished (a b : Word) : (s.setPair a b).finished = s.finished := rfl

/-! ### setPairA -/

@[simp] theorem setPairA_pairA (a : Word) : (s.setPairA a).pairA = a := rfl
@[simp] theorem setPairA_pairB (a : Word) : (s.setPairA a).pairB = s.pairB := rfl
@[simp] theorem setPairA_sampleRate (a : Word) : (s.setPairA a).sampleRate = s.sampleRate := rfl
@[simp] theorem setPairA_astableRun (a : Word) : (s.setPairA a).astableRun = s.astableRun := rfl
@[simp] theorem setPairA_monostableRun (a : Word) : (s.setPairA a).monostableRun = s.monostableRun := rfl
@[simp] theorem setPairA_outputLevel (a : Word) : (s.setPairA a).outputLevel = s.outputLevel := rfl
@[simp] theorem setPairA_notes (a : Word) : (s.setPairA a).notes = s.notes := rfl
@[simp] theorem setPairA_gain (a : Word) : (s.setPairA a).gain = s.gain := rfl
@[simp] theorem setPairA_gestureActive (a : Word) : (s.setPairA a).gestureActive = s.gestureActive := rfl
@[simp] theorem setPairA_busy (a : Word) : (s.setPairA a).busy = s.busy := rfl
@[simp] theorem setPairA_blkLen (a : Word) : (s.setPairA a).blkLen = s.blkLen := rfl
@[simp] theorem setPairA_sampleIdx (a : Word) : (s.setPairA a).sampleIdx = s.sampleIdx := rfl
@[simp] theorem setPairA_eventIdx (a : Word) : (s.setPairA a).eventIdx = s.eventIdx := rfl
@[simp] theorem setPairA_evbuf (a : Word) : (s.setPairA a).evbuf = s.evbuf := rfl
@[simp] theorem setPairA_pendA (a : Word) : (s.setPairA a).pendA = s.pendA := rfl
@[simp] theorem setPairA_pendB (a : Word) : (s.setPairA a).pendB = s.pendB := rfl
@[simp] theorem setPairA_pendGain (a : Word) : (s.setPairA a).pendGain = s.pendGain := rfl
@[simp] theorem setPairA_pendGesture (a : Word) : (s.setPairA a).pendGesture = s.pendGesture := rfl
@[simp] theorem setPairA_port (a : Word) : (s.setPairA a).port = s.port := rfl
@[simp] theorem setPairA_eventPort (a : Word) : (s.setPairA a).eventPort = s.eventPort := rfl
@[simp] theorem setPairA_held (a : Word) : (s.setPairA a).held = s.held := rfl
@[simp] theorem setPairA_schedule (a : Word) : (s.setPairA a).schedule = s.schedule := rfl
@[simp] theorem setPairA_out (a : Word) : (s.setPairA a).out = s.out := rfl
@[simp] theorem setPairA_finished (a : Word) : (s.setPairA a).finished = s.finished := rfl

/-! ### setPairB -/

@[simp] theorem setPairB_pairA (b : Word) : (s.setPairB b).pairA = s.pairA := rfl
@[simp] theorem setPairB_pairB (b : Word) : (s.setPairB b).pairB = b := rfl
@[simp] theorem setPairB_sampleRate (b : Word) : (s.setPairB b).sampleRate = s.sampleRate := rfl
@[simp] theorem setPairB_astableRun (b : Word) : (s.setPairB b).astableRun = s.astableRun := rfl
@[simp] theorem setPairB_monostableRun (b : Word) : (s.setPairB b).monostableRun = s.monostableRun := rfl
@[simp] theorem setPairB_outputLevel (b : Word) : (s.setPairB b).outputLevel = s.outputLevel := rfl
@[simp] theorem setPairB_notes (b : Word) : (s.setPairB b).notes = s.notes := rfl
@[simp] theorem setPairB_gain (b : Word) : (s.setPairB b).gain = s.gain := rfl
@[simp] theorem setPairB_gestureActive (b : Word) : (s.setPairB b).gestureActive = s.gestureActive := rfl
@[simp] theorem setPairB_busy (b : Word) : (s.setPairB b).busy = s.busy := rfl
@[simp] theorem setPairB_blkLen (b : Word) : (s.setPairB b).blkLen = s.blkLen := rfl
@[simp] theorem setPairB_sampleIdx (b : Word) : (s.setPairB b).sampleIdx = s.sampleIdx := rfl
@[simp] theorem setPairB_eventIdx (b : Word) : (s.setPairB b).eventIdx = s.eventIdx := rfl
@[simp] theorem setPairB_evbuf (b : Word) : (s.setPairB b).evbuf = s.evbuf := rfl
@[simp] theorem setPairB_pendA (b : Word) : (s.setPairB b).pendA = s.pendA := rfl
@[simp] theorem setPairB_pendB (b : Word) : (s.setPairB b).pendB = s.pendB := rfl
@[simp] theorem setPairB_pendGain (b : Word) : (s.setPairB b).pendGain = s.pendGain := rfl
@[simp] theorem setPairB_pendGesture (b : Word) : (s.setPairB b).pendGesture = s.pendGesture := rfl
@[simp] theorem setPairB_port (b : Word) : (s.setPairB b).port = s.port := rfl
@[simp] theorem setPairB_eventPort (b : Word) : (s.setPairB b).eventPort = s.eventPort := rfl
@[simp] theorem setPairB_held (b : Word) : (s.setPairB b).held = s.held := rfl
@[simp] theorem setPairB_schedule (b : Word) : (s.setPairB b).schedule = s.schedule := rfl
@[simp] theorem setPairB_out (b : Word) : (s.setPairB b).out = s.out := rfl
@[simp] theorem setPairB_finished (b : Word) : (s.setPairB b).finished = s.finished := rfl

/-! ### setNotes -/

@[simp] theorem setNotes_pairA (ns : NoteSet) : (s.setNotes ns).pairA = s.pairA := rfl
@[simp] theorem setNotes_pairB (ns : NoteSet) : (s.setNotes ns).pairB = s.pairB := rfl
@[simp] theorem setNotes_sampleRate (ns : NoteSet) : (s.setNotes ns).sampleRate = s.sampleRate := rfl
@[simp] theorem setNotes_astableRun (ns : NoteSet) : (s.setNotes ns).astableRun = s.astableRun := rfl
@[simp] theorem setNotes_monostableRun (ns : NoteSet) : (s.setNotes ns).monostableRun = s.monostableRun := rfl
@[simp] theorem setNotes_outputLevel (ns : NoteSet) : (s.setNotes ns).outputLevel = s.outputLevel := rfl
@[simp] theorem setNotes_notes (ns : NoteSet) : (s.setNotes ns).notes = ns := rfl
@[simp] theorem setNotes_gain (ns : NoteSet) : (s.setNotes ns).gain = s.gain := rfl
@[simp] theorem setNotes_gestureActive (ns : NoteSet) : (s.setNotes ns).gestureActive = s.gestureActive := rfl
@[simp] theorem setNotes_busy (ns : NoteSet) : (s.setNotes ns).busy = s.busy := rfl
@[simp] theorem setNotes_blkLen (ns : NoteSet) : (s.setNotes ns).blkLen = s.blkLen := rfl
@[simp] theorem setNotes_sampleIdx (ns : NoteSet) : (s.setNotes ns).sampleIdx = s.sampleIdx := rfl
@[simp] theorem setNotes_eventIdx (ns : NoteSet) : (s.setNotes ns).eventIdx = s.eventIdx := rfl
@[simp] theorem setNotes_evbuf (ns : NoteSet) : (s.setNotes ns).evbuf = s.evbuf := rfl
@[simp] theorem setNotes_pendA (ns : NoteSet) : (s.setNotes ns).pendA = s.pendA := rfl
@[simp] theorem setNotes_pendB (ns : NoteSet) : (s.setNotes ns).pendB = s.pendB := rfl
@[simp] theorem setNotes_pendGain (ns : NoteSet) : (s.setNotes ns).pendGain = s.pendGain := rfl
@[simp] theorem setNotes_pendGesture (ns : NoteSet) : (s.setNotes ns).pendGesture = s.pendGesture := rfl
@[simp] theorem setNotes_port (ns : NoteSet) : (s.setNotes ns).port = s.port := rfl
@[simp] theorem setNotes_eventPort (ns : NoteSet) : (s.setNotes ns).eventPort = s.eventPort := rfl
@[simp] theorem setNotes_held (ns : NoteSet) : (s.setNotes ns).held = s.held := rfl
@[simp] theorem setNotes_schedule (ns : NoteSet) : (s.setNotes ns).schedule = s.schedule := rfl
@[simp] theorem setNotes_out (ns : NoteSet) : (s.setNotes ns).out = s.out := rfl
@[simp] theorem setNotes_finished (ns : NoteSet) : (s.setNotes ns).finished = s.finished := rfl

/-! ### setGainReg -/

@[simp] theorem setGainReg_pairA (g : Word) : (s.setGainReg g).pairA = s.pairA := rfl
@[simp] theorem setGainReg_pairB (g : Word) : (s.setGainReg g).pairB = s.pairB := rfl
@[simp] theorem setGainReg_sampleRate (g : Word) : (s.setGainReg g).sampleRate = s.sampleRate := rfl
@[simp] theorem setGainReg_astableRun (g : Word) : (s.setGainReg g).astableRun = s.astableRun := rfl
@[simp] theorem setGainReg_monostableRun (g : Word) : (s.setGainReg g).monostableRun = s.monostableRun := rfl
@[simp] theorem setGainReg_outputLevel (g : Word) : (s.setGainReg g).outputLevel = s.outputLevel := rfl
@[simp] theorem setGainReg_notes (g : Word) : (s.setGainReg g).notes = s.notes := rfl
@[simp] theorem setGainReg_gain (g : Word) : (s.setGainReg g).gain = g := rfl
@[simp] theorem setGainReg_gestureActive (g : Word) : (s.setGainReg g).gestureActive = s.gestureActive := rfl
@[simp] theorem setGainReg_busy (g : Word) : (s.setGainReg g).busy = s.busy := rfl
@[simp] theorem setGainReg_blkLen (g : Word) : (s.setGainReg g).blkLen = s.blkLen := rfl
@[simp] theorem setGainReg_sampleIdx (g : Word) : (s.setGainReg g).sampleIdx = s.sampleIdx := rfl
@[simp] theorem setGainReg_eventIdx (g : Word) : (s.setGainReg g).eventIdx = s.eventIdx := rfl
@[simp] theorem setGainReg_evbuf (g : Word) : (s.setGainReg g).evbuf = s.evbuf := rfl
@[simp] theorem setGainReg_pendA (g : Word) : (s.setGainReg g).pendA = s.pendA := rfl
@[simp] theorem setGainReg_pendB (g : Word) : (s.setGainReg g).pendB = s.pendB := rfl
@[simp] theorem setGainReg_pendGain (g : Word) : (s.setGainReg g).pendGain = s.pendGain := rfl
@[simp] theorem setGainReg_pendGesture (g : Word) : (s.setGainReg g).pendGesture = s.pendGesture := rfl
@[simp] theorem setGainReg_port (g : Word) : (s.setGainReg g).port = s.port := rfl
@[simp] theorem setGainReg_eventPort (g : Word) : (s.setGainReg g).eventPort = s.eventPort := rfl
@[simp] theorem setGainReg_held (g : Word) : (s.setGainReg g).held = s.held := rfl
@[simp] theorem setGainReg_schedule (g : Word) : (s.setGainReg g).schedule = s.schedule := rfl
@[simp] theorem setGainReg_out (g : Word) : (s.setGainReg g).out = s.out := rfl
@[simp] theorem setGainReg_finished (g : Word) : (s.setGainReg g).finished = s.finished := rfl

/-! ### setGestureReg -/

@[simp] theorem setGestureReg_pairA (g : Bool) : (s.setGestureReg g).pairA = s.pairA := rfl
@[simp] theorem setGestureReg_pairB (g : Bool) : (s.setGestureReg g).pairB = s.pairB := rfl
@[simp] theorem setGestureReg_sampleRate (g : Bool) : (s.setGestureReg g).sampleRate = s.sampleRate := rfl
@[simp] theorem setGestureReg_astableRun (g : Bool) : (s.setGestureReg g).astableRun = s.astableRun := rfl
@[simp] theorem setGestureReg_monostableRun (g : Bool) : (s.setGestureReg g).monostableRun = s.monostableRun := rfl
@[simp] theorem setGestureReg_outputLevel (g : Bool) : (s.setGestureReg g).outputLevel = s.outputLevel := rfl
@[simp] theorem setGestureReg_notes (g : Bool) : (s.setGestureReg g).notes = s.notes := rfl
@[simp] theorem setGestureReg_gain (g : Bool) : (s.setGestureReg g).gain = s.gain := rfl
@[simp] theorem setGestureReg_gestureActive (g : Bool) : (s.setGestureReg g).gestureActive = g := rfl
@[simp] theorem setGestureReg_busy (g : Bool) : (s.setGestureReg g).busy = s.busy := rfl
@[simp] theorem setGestureReg_blkLen (g : Bool) : (s.setGestureReg g).blkLen = s.blkLen := rfl
@[simp] theorem setGestureReg_sampleIdx (g : Bool) : (s.setGestureReg g).sampleIdx = s.sampleIdx := rfl
@[simp] theorem setGestureReg_eventIdx (g : Bool) : (s.setGestureReg g).eventIdx = s.eventIdx := rfl
@[simp] theorem setGestureReg_evbuf (g : Bool) : (s.setGestureReg g).evbuf = s.evbuf := rfl
@[simp] theorem setGestureReg_pendA (g : Bool) : (s.setGestureReg g).pendA = s.pendA := rfl
@[simp] theorem setGestureReg_pendB (g : Bool) : (s.setGestureReg g).pendB = s.pendB := rfl
@[simp] theorem setGestureReg_pendGain (g : Bool) : (s.setGestureReg g).pendGain = s.pendGain := rfl
@[simp] theorem setGestureReg_pendGesture (g : Bool) : (s.setGestureReg g).pendGesture = s.pendGesture := rfl
@[simp] theorem setGestureReg_port (g : Bool) : (s.setGestureReg g).port = s.port := rfl
@[simp] theorem setGestureReg_eventPort (g : Bool) : (s.setGestureReg g).eventPort = s.eventPort := rfl
@[simp] theorem setGestureReg_held (g : Bool) : (s.setGestureReg g).held = s.held := rfl
@[simp] theorem setGestureReg_schedule (g : Bool) : (s.setGestureReg g).schedule = s.schedule := rfl
@[simp] theorem setGestureReg_out (g : Bool) : (s.setGestureReg g).out = s.out := rfl
@[simp] theorem setGestureReg_finished (g : Bool) : (s.setGestureReg g).finished = s.finished := rfl

/-! ### setRateReg -/

@[simp] theorem setRateReg_pairA (r : Word) : (s.setRateReg r).pairA = s.pairA := rfl
@[simp] theorem setRateReg_pairB (r : Word) : (s.setRateReg r).pairB = s.pairB := rfl
@[simp] theorem setRateReg_sampleRate (r : Word) : (s.setRateReg r).sampleRate = r := rfl
@[simp] theorem setRateReg_astableRun (r : Word) : (s.setRateReg r).astableRun = s.astableRun := rfl
@[simp] theorem setRateReg_monostableRun (r : Word) : (s.setRateReg r).monostableRun = s.monostableRun := rfl
@[simp] theorem setRateReg_outputLevel (r : Word) : (s.setRateReg r).outputLevel = s.outputLevel := rfl
@[simp] theorem setRateReg_notes (r : Word) : (s.setRateReg r).notes = s.notes := rfl
@[simp] theorem setRateReg_gain (r : Word) : (s.setRateReg r).gain = s.gain := rfl
@[simp] theorem setRateReg_gestureActive (r : Word) : (s.setRateReg r).gestureActive = s.gestureActive := rfl
@[simp] theorem setRateReg_busy (r : Word) : (s.setRateReg r).busy = s.busy := rfl
@[simp] theorem setRateReg_blkLen (r : Word) : (s.setRateReg r).blkLen = s.blkLen := rfl
@[simp] theorem setRateReg_sampleIdx (r : Word) : (s.setRateReg r).sampleIdx = s.sampleIdx := rfl
@[simp] theorem setRateReg_eventIdx (r : Word) : (s.setRateReg r).eventIdx = s.eventIdx := rfl
@[simp] theorem setRateReg_evbuf (r : Word) : (s.setRateReg r).evbuf = s.evbuf := rfl
@[simp] theorem setRateReg_pendA (r : Word) : (s.setRateReg r).pendA = s.pendA := rfl
@[simp] theorem setRateReg_pendB (r : Word) : (s.setRateReg r).pendB = s.pendB := rfl
@[simp] theorem setRateReg_pendGain (r : Word) : (s.setRateReg r).pendGain = s.pendGain := rfl
@[simp] theorem setRateReg_pendGesture (r : Word) : (s.setRateReg r).pendGesture = s.pendGesture := rfl
@[simp] theorem setRateReg_port (r : Word) : (s.setRateReg r).port = s.port := rfl
@[simp] theorem setRateReg_eventPort (r : Word) : (s.setRateReg r).eventPort = s.eventPort := rfl
@[simp] theorem setRateReg_held (r : Word) : (s.setRateReg r).held = s.held := rfl
@[simp] theorem setRateReg_schedule (r : Word) : (s.setRateReg r).schedule = s.schedule := rfl
@[simp] theorem setRateReg_out (r : Word) : (s.setRateReg r).out = s.out := rfl
@[simp] theorem setRateReg_finished (r : Word) : (s.setRateReg r).finished = s.finished := rfl

/-! ### setCounters -/

@[simp] theorem setCounters_pairA (a m : Word) : (s.setCounters a m).pairA = s.pairA := rfl
@[simp] theorem setCounters_pairB (a m : Word) : (s.setCounters a m).pairB = s.pairB := rfl
@[simp] theorem setCounters_sampleRate (a m : Word) : (s.setCounters a m).sampleRate = s.sampleRate := rfl
@[simp] theorem setCounters_astableRun (a m : Word) : (s.setCounters a m).astableRun = a := rfl
@[simp] theorem setCounters_monostableRun (a m : Word) : (s.setCounters a m).monostableRun = m := rfl
@[simp] theorem setCounters_outputLevel (a m : Word) : (s.setCounters a m).outputLevel = s.outputLevel := rfl
@[simp] theorem setCounters_notes (a m : Word) : (s.setCounters a m).notes = s.notes := rfl
@[simp] theorem setCounters_gain (a m : Word) : (s.setCounters a m).gain = s.gain := rfl
@[simp] theorem setCounters_gestureActive (a m : Word) : (s.setCounters a m).gestureActive = s.gestureActive := rfl
@[simp] theorem setCounters_busy (a m : Word) : (s.setCounters a m).busy = s.busy := rfl
@[simp] theorem setCounters_blkLen (a m : Word) : (s.setCounters a m).blkLen = s.blkLen := rfl
@[simp] theorem setCounters_sampleIdx (a m : Word) : (s.setCounters a m).sampleIdx = s.sampleIdx := rfl
@[simp] theorem setCounters_eventIdx (a m : Word) : (s.setCounters a m).eventIdx = s.eventIdx := rfl
@[simp] theorem setCounters_evbuf (a m : Word) : (s.setCounters a m).evbuf = s.evbuf := rfl
@[simp] theorem setCounters_pendA (a m : Word) : (s.setCounters a m).pendA = s.pendA := rfl
@[simp] theorem setCounters_pendB (a m : Word) : (s.setCounters a m).pendB = s.pendB := rfl
@[simp] theorem setCounters_pendGain (a m : Word) : (s.setCounters a m).pendGain = s.pendGain := rfl
@[simp] theorem setCounters_pendGesture (a m : Word) : (s.setCounters a m).pendGesture = s.pendGesture := rfl
@[simp] theorem setCounters_port (a m : Word) : (s.setCounters a m).port = s.port := rfl
@[simp] theorem setCounters_eventPort (a m : Word) : (s.setCounters a m).eventPort = s.eventPort := rfl
@[simp] theorem setCounters_held (a m : Word) : (s.setCounters a m).held = s.held := rfl
@[simp] theorem setCounters_schedule (a m : Word) : (s.setCounters a m).schedule = s.schedule := rfl
@[simp] theorem setCounters_out (a m : Word) : (s.setCounters a m).out = s.out := rfl
@[simp] theorem setCounters_finished (a m : Word) : (s.setCounters a m).finished = s.finished := rfl

/-! ### setLevel -/

@[simp] theorem setLevel_pairA (l : Bool) : (s.setLevel l).pairA = s.pairA := rfl
@[simp] theorem setLevel_pairB (l : Bool) : (s.setLevel l).pairB = s.pairB := rfl
@[simp] theorem setLevel_sampleRate (l : Bool) : (s.setLevel l).sampleRate = s.sampleRate := rfl
@[simp] theorem setLevel_astableRun (l : Bool) : (s.setLevel l).astableRun = s.astableRun := rfl
@[simp] theorem setLevel_monostableRun (l : Bool) : (s.setLevel l).monostableRun = s.monostableRun := rfl
@[simp] theorem setLevel_outputLevel (l : Bool) : (s.setLevel l).outputLevel = l := rfl
@[simp] theorem setLevel_notes (l : Bool) : (s.setLevel l).notes = s.notes := rfl
@[simp] theorem setLevel_gain (l : Bool) : (s.setLevel l).gain = s.gain := rfl
@[simp] theorem setLevel_gestureActive (l : Bool) : (s.setLevel l).gestureActive = s.gestureActive := rfl
@[simp] theorem setLevel_busy (l : Bool) : (s.setLevel l).busy = s.busy := rfl
@[simp] theorem setLevel_blkLen (l : Bool) : (s.setLevel l).blkLen = s.blkLen := rfl
@[simp] theorem setLevel_sampleIdx (l : Bool) : (s.setLevel l).sampleIdx = s.sampleIdx := rfl
@[simp] theorem setLevel_eventIdx (l : Bool) : (s.setLevel l).eventIdx = s.eventIdx := rfl
@[simp] theorem setLevel_evbuf (l : Bool) : (s.setLevel l).evbuf = s.evbuf := rfl
@[simp] theorem setLevel_pendA (l : Bool) : (s.setLevel l).pendA = s.pendA := rfl
@[simp] theorem setLevel_pendB (l : Bool) : (s.setLevel l).pendB = s.pendB := rfl
@[simp] theorem setLevel_pendGain (l : Bool) : (s.setLevel l).pendGain = s.pendGain := rfl
@[simp] theorem setLevel_pendGesture (l : Bool) : (s.setLevel l).pendGesture = s.pendGesture := rfl
@[simp] theorem setLevel_port (l : Bool) : (s.setLevel l).port = s.port := rfl
@[simp] theorem setLevel_eventPort (l : Bool) : (s.setLevel l).eventPort = s.eventPort := rfl
@[simp] theorem setLevel_held (l : Bool) : (s.setLevel l).held = s.held := rfl
@[simp] theorem setLevel_schedule (l : Bool) : (s.setLevel l).schedule = s.schedule := rfl
@[simp] theorem setLevel_out (l : Bool) : (s.setLevel l).out = s.out := rfl
@[simp] theorem setLevel_finished (l : Bool) : (s.setLevel l).finished = s.finished := rfl

/-! ### dropMove -/

@[simp] theorem dropMove_pairA : s.dropMove.pairA = s.pairA := rfl
@[simp] theorem dropMove_pairB : s.dropMove.pairB = s.pairB := rfl
@[simp] theorem dropMove_sampleRate : s.dropMove.sampleRate = s.sampleRate := rfl
@[simp] theorem dropMove_astableRun : s.dropMove.astableRun = s.astableRun := rfl
@[simp] theorem dropMove_monostableRun : s.dropMove.monostableRun = s.monostableRun := rfl
@[simp] theorem dropMove_outputLevel : s.dropMove.outputLevel = s.outputLevel := rfl
@[simp] theorem dropMove_notes : s.dropMove.notes = s.notes := rfl
@[simp] theorem dropMove_gain : s.dropMove.gain = s.gain := rfl
@[simp] theorem dropMove_gestureActive : s.dropMove.gestureActive = s.gestureActive := rfl
@[simp] theorem dropMove_busy : s.dropMove.busy = s.busy := rfl
@[simp] theorem dropMove_blkLen : s.dropMove.blkLen = s.blkLen := rfl
@[simp] theorem dropMove_sampleIdx : s.dropMove.sampleIdx = s.sampleIdx := rfl
@[simp] theorem dropMove_eventIdx : s.dropMove.eventIdx = s.eventIdx := rfl
@[simp] theorem dropMove_evbuf : s.dropMove.evbuf = s.evbuf := rfl
@[simp] theorem dropMove_pendA : s.dropMove.pendA = s.pendA := rfl
@[simp] theorem dropMove_pendB : s.dropMove.pendB = s.pendB := rfl
@[simp] theorem dropMove_pendGain : s.dropMove.pendGain = s.pendGain := rfl
@[simp] theorem dropMove_pendGesture : s.dropMove.pendGesture = s.pendGesture := rfl
@[simp] theorem dropMove_port : s.dropMove.port = s.port := rfl
@[simp] theorem dropMove_eventPort : s.dropMove.eventPort = s.eventPort := rfl
@[simp] theorem dropMove_held : s.dropMove.held = s.held := rfl
@[simp] theorem dropMove_schedule : s.dropMove.schedule = s.schedule.tail := rfl
@[simp] theorem dropMove_out : s.dropMove.out = s.out := rfl
@[simp] theorem dropMove_finished : s.dropMove.finished = s.finished := rfl

/-! ### dropArrival -/

@[simp] theorem dropArrival_pairA : s.dropArrival.pairA = s.pairA := rfl
@[simp] theorem dropArrival_pairB : s.dropArrival.pairB = s.pairB := rfl
@[simp] theorem dropArrival_sampleRate : s.dropArrival.sampleRate = s.sampleRate := rfl
@[simp] theorem dropArrival_astableRun : s.dropArrival.astableRun = s.astableRun := rfl
@[simp] theorem dropArrival_monostableRun : s.dropArrival.monostableRun = s.monostableRun := rfl
@[simp] theorem dropArrival_outputLevel : s.dropArrival.outputLevel = s.outputLevel := rfl
@[simp] theorem dropArrival_notes : s.dropArrival.notes = s.notes := rfl
@[simp] theorem dropArrival_gain : s.dropArrival.gain = s.gain := rfl
@[simp] theorem dropArrival_gestureActive : s.dropArrival.gestureActive = s.gestureActive := rfl
@[simp] theorem dropArrival_busy : s.dropArrival.busy = s.busy := rfl
@[simp] theorem dropArrival_blkLen : s.dropArrival.blkLen = s.blkLen := rfl
@[simp] theorem dropArrival_sampleIdx : s.dropArrival.sampleIdx = s.sampleIdx := rfl
@[simp] theorem dropArrival_eventIdx : s.dropArrival.eventIdx = s.eventIdx := rfl
@[simp] theorem dropArrival_evbuf : s.dropArrival.evbuf = s.evbuf := rfl
@[simp] theorem dropArrival_pendA : s.dropArrival.pendA = s.pendA := rfl
@[simp] theorem dropArrival_pendB : s.dropArrival.pendB = s.pendB := rfl
@[simp] theorem dropArrival_pendGain : s.dropArrival.pendGain = s.pendGain := rfl
@[simp] theorem dropArrival_pendGesture : s.dropArrival.pendGesture = s.pendGesture := rfl
@[simp] theorem dropArrival_port : s.dropArrival.port = s.port.tail := rfl
@[simp] theorem dropArrival_eventPort : s.dropArrival.eventPort = s.eventPort := rfl
@[simp] theorem dropArrival_held : s.dropArrival.held = s.held := rfl
@[simp] theorem dropArrival_schedule : s.dropArrival.schedule = s.schedule := rfl
@[simp] theorem dropArrival_out : s.dropArrival.out = s.out := rfl
@[simp] theorem dropArrival_finished : s.dropArrival.finished = s.finished := rfl

/-! ### dropHeld -/

@[simp] theorem dropHeld_pairA : s.dropHeld.pairA = s.pairA := rfl
@[simp] theorem dropHeld_pairB : s.dropHeld.pairB = s.pairB := rfl
@[simp] theorem dropHeld_sampleRate : s.dropHeld.sampleRate = s.sampleRate := rfl
@[simp] theorem dropHeld_astableRun : s.dropHeld.astableRun = s.astableRun := rfl
@[simp] theorem dropHeld_monostableRun : s.dropHeld.monostableRun = s.monostableRun := rfl
@[simp] theorem dropHeld_outputLevel : s.dropHeld.outputLevel = s.outputLevel := rfl
@[simp] theorem dropHeld_notes : s.dropHeld.notes = s.notes := rfl
@[simp] theorem dropHeld_gain : s.dropHeld.gain = s.gain := rfl
@[simp] theorem dropHeld_gestureActive : s.dropHeld.gestureActive = s.gestureActive := rfl
@[simp] theorem dropHeld_busy : s.dropHeld.busy = s.busy := rfl
@[simp] theorem dropHeld_blkLen : s.dropHeld.blkLen = s.blkLen := rfl
@[simp] theorem dropHeld_sampleIdx : s.dropHeld.sampleIdx = s.sampleIdx := rfl
@[simp] theorem dropHeld_eventIdx : s.dropHeld.eventIdx = s.eventIdx := rfl
@[simp] theorem dropHeld_evbuf : s.dropHeld.evbuf = s.evbuf := rfl
@[simp] theorem dropHeld_pendA : s.dropHeld.pendA = s.pendA := rfl
@[simp] theorem dropHeld_pendB : s.dropHeld.pendB = s.pendB := rfl
@[simp] theorem dropHeld_pendGain : s.dropHeld.pendGain = s.pendGain := rfl
@[simp] theorem dropHeld_pendGesture : s.dropHeld.pendGesture = s.pendGesture := rfl
@[simp] theorem dropHeld_port : s.dropHeld.port = s.port := rfl
@[simp] theorem dropHeld_eventPort : s.dropHeld.eventPort = s.eventPort := rfl
@[simp] theorem dropHeld_held : s.dropHeld.held = s.held.tail := rfl
@[simp] theorem dropHeld_schedule : s.dropHeld.schedule = s.schedule := rfl
@[simp] theorem dropHeld_out : s.dropHeld.out = s.out := rfl
@[simp] theorem dropHeld_finished : s.dropHeld.finished = s.finished := rfl

/-! ### hold -/

@[simp] theorem hold_pairA (c : HeldCommand) : (s.hold c).pairA = s.pairA := rfl
@[simp] theorem hold_pairB (c : HeldCommand) : (s.hold c).pairB = s.pairB := rfl
@[simp] theorem hold_sampleRate (c : HeldCommand) : (s.hold c).sampleRate = s.sampleRate := rfl
@[simp] theorem hold_astableRun (c : HeldCommand) : (s.hold c).astableRun = s.astableRun := rfl
@[simp] theorem hold_monostableRun (c : HeldCommand) : (s.hold c).monostableRun = s.monostableRun := rfl
@[simp] theorem hold_outputLevel (c : HeldCommand) : (s.hold c).outputLevel = s.outputLevel := rfl
@[simp] theorem hold_notes (c : HeldCommand) : (s.hold c).notes = s.notes := rfl
@[simp] theorem hold_gain (c : HeldCommand) : (s.hold c).gain = s.gain := rfl
@[simp] theorem hold_gestureActive (c : HeldCommand) : (s.hold c).gestureActive = s.gestureActive := rfl
@[simp] theorem hold_busy (c : HeldCommand) : (s.hold c).busy = s.busy := rfl
@[simp] theorem hold_blkLen (c : HeldCommand) : (s.hold c).blkLen = s.blkLen := rfl
@[simp] theorem hold_sampleIdx (c : HeldCommand) : (s.hold c).sampleIdx = s.sampleIdx := rfl
@[simp] theorem hold_eventIdx (c : HeldCommand) : (s.hold c).eventIdx = s.eventIdx := rfl
@[simp] theorem hold_evbuf (c : HeldCommand) : (s.hold c).evbuf = s.evbuf := rfl
@[simp] theorem hold_pendA (c : HeldCommand) : (s.hold c).pendA = s.pendA := rfl
@[simp] theorem hold_pendB (c : HeldCommand) : (s.hold c).pendB = s.pendB := rfl
@[simp] theorem hold_pendGain (c : HeldCommand) : (s.hold c).pendGain = s.pendGain := rfl
@[simp] theorem hold_pendGesture (c : HeldCommand) : (s.hold c).pendGesture = s.pendGesture := rfl
@[simp] theorem hold_port (c : HeldCommand) : (s.hold c).port = s.port := rfl
@[simp] theorem hold_eventPort (c : HeldCommand) : (s.hold c).eventPort = s.eventPort := rfl
@[simp] theorem hold_held (c : HeldCommand) : (s.hold c).held = s.held ++ [c] := rfl
@[simp] theorem hold_schedule (c : HeldCommand) : (s.hold c).schedule = s.schedule := rfl
@[simp] theorem hold_out (c : HeldCommand) : (s.hold c).out = s.out := rfl
@[simp] theorem hold_finished (c : HeldCommand) : (s.hold c).finished = s.finished := rfl

/-! ### advanceEvent -/

@[simp] theorem advanceEvent_pairA : s.advanceEvent.pairA = s.pairA := rfl
@[simp] theorem advanceEvent_pairB : s.advanceEvent.pairB = s.pairB := rfl
@[simp] theorem advanceEvent_sampleRate : s.advanceEvent.sampleRate = s.sampleRate := rfl
@[simp] theorem advanceEvent_astableRun : s.advanceEvent.astableRun = s.astableRun := rfl
@[simp] theorem advanceEvent_monostableRun : s.advanceEvent.monostableRun = s.monostableRun := rfl
@[simp] theorem advanceEvent_outputLevel : s.advanceEvent.outputLevel = s.outputLevel := rfl
@[simp] theorem advanceEvent_notes : s.advanceEvent.notes = s.notes := rfl
@[simp] theorem advanceEvent_gain : s.advanceEvent.gain = s.gain := rfl
@[simp] theorem advanceEvent_gestureActive : s.advanceEvent.gestureActive = s.gestureActive := rfl
@[simp] theorem advanceEvent_busy : s.advanceEvent.busy = s.busy := rfl
@[simp] theorem advanceEvent_blkLen : s.advanceEvent.blkLen = s.blkLen := rfl
@[simp] theorem advanceEvent_sampleIdx : s.advanceEvent.sampleIdx = s.sampleIdx := rfl
@[simp] theorem advanceEvent_eventIdx : s.advanceEvent.eventIdx = s.eventIdx + 1#32 := rfl
@[simp] theorem advanceEvent_evbuf : s.advanceEvent.evbuf = s.evbuf := rfl
@[simp] theorem advanceEvent_pendA : s.advanceEvent.pendA = s.pendA := rfl
@[simp] theorem advanceEvent_pendB : s.advanceEvent.pendB = s.pendB := rfl
@[simp] theorem advanceEvent_pendGain : s.advanceEvent.pendGain = s.pendGain := rfl
@[simp] theorem advanceEvent_pendGesture : s.advanceEvent.pendGesture = s.pendGesture := rfl
@[simp] theorem advanceEvent_port : s.advanceEvent.port = s.port := rfl
@[simp] theorem advanceEvent_eventPort : s.advanceEvent.eventPort = s.eventPort := rfl
@[simp] theorem advanceEvent_held : s.advanceEvent.held = s.held := rfl
@[simp] theorem advanceEvent_schedule : s.advanceEvent.schedule = s.schedule := rfl
@[simp] theorem advanceEvent_out : s.advanceEvent.out = s.out := rfl
@[simp] theorem advanceEvent_finished : s.advanceEvent.finished = s.finished := rfl

/-! ### advanceSample -/

@[simp] theorem advanceSample_pairA : s.advanceSample.pairA = s.pairA := rfl
@[simp] theorem advanceSample_pairB : s.advanceSample.pairB = s.pairB := rfl
@[simp] theorem advanceSample_sampleRate : s.advanceSample.sampleRate = s.sampleRate := rfl
@[simp] theorem advanceSample_astableRun : s.advanceSample.astableRun = s.astableRun := rfl
@[simp] theorem advanceSample_monostableRun : s.advanceSample.monostableRun = s.monostableRun := rfl
@[simp] theorem advanceSample_outputLevel : s.advanceSample.outputLevel = s.outputLevel := rfl
@[simp] theorem advanceSample_notes : s.advanceSample.notes = s.notes := rfl
@[simp] theorem advanceSample_gain : s.advanceSample.gain = s.gain := rfl
@[simp] theorem advanceSample_gestureActive : s.advanceSample.gestureActive = s.gestureActive := rfl
@[simp] theorem advanceSample_busy : s.advanceSample.busy = s.busy := rfl
@[simp] theorem advanceSample_blkLen : s.advanceSample.blkLen = s.blkLen := rfl
@[simp] theorem advanceSample_sampleIdx : s.advanceSample.sampleIdx = s.sampleIdx + 1#32 := rfl
@[simp] theorem advanceSample_eventIdx : s.advanceSample.eventIdx = s.eventIdx := rfl
@[simp] theorem advanceSample_evbuf : s.advanceSample.evbuf = s.evbuf := rfl
@[simp] theorem advanceSample_pendA : s.advanceSample.pendA = s.pendA := rfl
@[simp] theorem advanceSample_pendB : s.advanceSample.pendB = s.pendB := rfl
@[simp] theorem advanceSample_pendGain : s.advanceSample.pendGain = s.pendGain := rfl
@[simp] theorem advanceSample_pendGesture : s.advanceSample.pendGesture = s.pendGesture := rfl
@[simp] theorem advanceSample_port : s.advanceSample.port = s.port := rfl
@[simp] theorem advanceSample_eventPort : s.advanceSample.eventPort = s.eventPort := rfl
@[simp] theorem advanceSample_held : s.advanceSample.held = s.held := rfl
@[simp] theorem advanceSample_schedule : s.advanceSample.schedule = s.schedule := rfl
@[simp] theorem advanceSample_out : s.advanceSample.out = s.out := rfl
@[simp] theorem advanceSample_finished : s.advanceSample.finished = s.finished := rfl

/-! ### beginBlock -/

@[simp] theorem beginBlock_pairA (l : Word) (es : List EventRecord) : (s.beginBlock l es).pairA = s.pairA := rfl
@[simp] theorem beginBlock_pairB (l : Word) (es : List EventRecord) : (s.beginBlock l es).pairB = s.pairB := rfl
@[simp] theorem beginBlock_sampleRate (l : Word) (es : List EventRecord) : (s.beginBlock l es).sampleRate = s.sampleRate := rfl
@[simp] theorem beginBlock_astableRun (l : Word) (es : List EventRecord) : (s.beginBlock l es).astableRun = s.astableRun := rfl
@[simp] theorem beginBlock_monostableRun (l : Word) (es : List EventRecord) : (s.beginBlock l es).monostableRun = s.monostableRun := rfl
@[simp] theorem beginBlock_outputLevel (l : Word) (es : List EventRecord) : (s.beginBlock l es).outputLevel = s.outputLevel := rfl
@[simp] theorem beginBlock_notes (l : Word) (es : List EventRecord) : (s.beginBlock l es).notes = s.notes := rfl
@[simp] theorem beginBlock_gain (l : Word) (es : List EventRecord) : (s.beginBlock l es).gain = s.gain := rfl
@[simp] theorem beginBlock_gestureActive (l : Word) (es : List EventRecord) : (s.beginBlock l es).gestureActive = s.gestureActive := rfl
@[simp] theorem beginBlock_busy (l : Word) (es : List EventRecord) : (s.beginBlock l es).busy = true := rfl
@[simp] theorem beginBlock_blkLen (l : Word) (es : List EventRecord) : (s.beginBlock l es).blkLen = l := rfl
@[simp] theorem beginBlock_sampleIdx (l : Word) (es : List EventRecord) : (s.beginBlock l es).sampleIdx = 0#32 := rfl
@[simp] theorem beginBlock_eventIdx (l : Word) (es : List EventRecord) : (s.beginBlock l es).eventIdx = 0#32 := rfl
@[simp] theorem beginBlock_evbuf (l : Word) (es : List EventRecord) : (s.beginBlock l es).evbuf = es := rfl
@[simp] theorem beginBlock_pendA (l : Word) (es : List EventRecord) : (s.beginBlock l es).pendA = s.pendA := rfl
@[simp] theorem beginBlock_pendB (l : Word) (es : List EventRecord) : (s.beginBlock l es).pendB = s.pendB := rfl
@[simp] theorem beginBlock_pendGain (l : Word) (es : List EventRecord) : (s.beginBlock l es).pendGain = s.pendGain := rfl
@[simp] theorem beginBlock_pendGesture (l : Word) (es : List EventRecord) : (s.beginBlock l es).pendGesture = s.pendGesture := rfl
@[simp] theorem beginBlock_port (l : Word) (es : List EventRecord) : (s.beginBlock l es).port = s.port := rfl
@[simp] theorem beginBlock_eventPort (l : Word) (es : List EventRecord) : (s.beginBlock l es).eventPort = s.eventPort.tail := rfl
@[simp] theorem beginBlock_held (l : Word) (es : List EventRecord) : (s.beginBlock l es).held = s.held := rfl
@[simp] theorem beginBlock_schedule (l : Word) (es : List EventRecord) : (s.beginBlock l es).schedule = s.schedule := rfl
@[simp] theorem beginBlock_out (l : Word) (es : List EventRecord) : (s.beginBlock l es).out = [] := rfl
@[simp] theorem beginBlock_finished (l : Word) (es : List EventRecord) : (s.beginBlock l es).finished = s.finished := rfl

/-! ### endBlock -/

@[simp] theorem endBlock_pairA : s.endBlock.pairA = s.pairA := rfl
@[simp] theorem endBlock_pairB : s.endBlock.pairB = s.pairB := rfl
@[simp] theorem endBlock_sampleRate : s.endBlock.sampleRate = s.sampleRate := rfl
@[simp] theorem endBlock_astableRun : s.endBlock.astableRun = s.astableRun := rfl
@[simp] theorem endBlock_monostableRun : s.endBlock.monostableRun = s.monostableRun := rfl
@[simp] theorem endBlock_outputLevel : s.endBlock.outputLevel = s.outputLevel := rfl
@[simp] theorem endBlock_notes : s.endBlock.notes = s.notes := rfl
@[simp] theorem endBlock_gain : s.endBlock.gain = s.gain := rfl
@[simp] theorem endBlock_gestureActive : s.endBlock.gestureActive = s.gestureActive := rfl
@[simp] theorem endBlock_busy : s.endBlock.busy = false := rfl
@[simp] theorem endBlock_blkLen : s.endBlock.blkLen = s.blkLen := rfl
@[simp] theorem endBlock_sampleIdx : s.endBlock.sampleIdx = s.sampleIdx := rfl
@[simp] theorem endBlock_eventIdx : s.endBlock.eventIdx = s.eventIdx := rfl
@[simp] theorem endBlock_evbuf : s.endBlock.evbuf = [] := rfl
@[simp] theorem endBlock_pendA : s.endBlock.pendA = s.pendA := rfl
@[simp] theorem endBlock_pendB : s.endBlock.pendB = s.pendB := rfl
@[simp] theorem endBlock_pendGain : s.endBlock.pendGain = s.pendGain := rfl
@[simp] theorem endBlock_pendGesture : s.endBlock.pendGesture = s.pendGesture := rfl
@[simp] theorem endBlock_port : s.endBlock.port = s.port := rfl
@[simp] theorem endBlock_eventPort : s.endBlock.eventPort = s.eventPort := rfl
@[simp] theorem endBlock_held : s.endBlock.held = s.held := rfl
@[simp] theorem endBlock_schedule : s.endBlock.schedule = s.schedule := rfl
@[simp] theorem endBlock_out : s.endBlock.out = [] := rfl
@[simp] theorem endBlock_finished : s.endBlock.finished = s.finished ++ [{ samples := s.out, written := s.blkLen }] := rfl

/-! ### outWrite -/

@[simp] theorem outWrite_pairA (v : Word) : (s.outWrite v).pairA = s.pairA := rfl
@[simp] theorem outWrite_pairB (v : Word) : (s.outWrite v).pairB = s.pairB := rfl
@[simp] theorem outWrite_sampleRate (v : Word) : (s.outWrite v).sampleRate = s.sampleRate := rfl
@[simp] theorem outWrite_astableRun (v : Word) : (s.outWrite v).astableRun = s.astableRun := rfl
@[simp] theorem outWrite_monostableRun (v : Word) : (s.outWrite v).monostableRun = s.monostableRun := rfl
@[simp] theorem outWrite_outputLevel (v : Word) : (s.outWrite v).outputLevel = s.outputLevel := rfl
@[simp] theorem outWrite_notes (v : Word) : (s.outWrite v).notes = s.notes := rfl
@[simp] theorem outWrite_gain (v : Word) : (s.outWrite v).gain = s.gain := rfl
@[simp] theorem outWrite_gestureActive (v : Word) : (s.outWrite v).gestureActive = s.gestureActive := rfl
@[simp] theorem outWrite_busy (v : Word) : (s.outWrite v).busy = s.busy := rfl
@[simp] theorem outWrite_blkLen (v : Word) : (s.outWrite v).blkLen = s.blkLen := rfl
@[simp] theorem outWrite_sampleIdx (v : Word) : (s.outWrite v).sampleIdx = s.sampleIdx := rfl
@[simp] theorem outWrite_eventIdx (v : Word) : (s.outWrite v).eventIdx = s.eventIdx := rfl
@[simp] theorem outWrite_evbuf (v : Word) : (s.outWrite v).evbuf = s.evbuf := rfl
@[simp] theorem outWrite_pendA (v : Word) : (s.outWrite v).pendA = s.pendA := rfl
@[simp] theorem outWrite_pendB (v : Word) : (s.outWrite v).pendB = s.pendB := rfl
@[simp] theorem outWrite_pendGain (v : Word) : (s.outWrite v).pendGain = s.pendGain := rfl
@[simp] theorem outWrite_pendGesture (v : Word) : (s.outWrite v).pendGesture = s.pendGesture := rfl
@[simp] theorem outWrite_port (v : Word) : (s.outWrite v).port = s.port := rfl
@[simp] theorem outWrite_eventPort (v : Word) : (s.outWrite v).eventPort = s.eventPort := rfl
@[simp] theorem outWrite_held (v : Word) : (s.outWrite v).held = s.held := rfl
@[simp] theorem outWrite_schedule (v : Word) : (s.outWrite v).schedule = s.schedule := rfl
@[simp] theorem outWrite_out (v : Word) : (s.outWrite v).out = s.out ++ [v] := rfl
@[simp] theorem outWrite_finished (v : Word) : (s.outWrite v).finished = s.finished := rfl

/-! ### setPairFromEntry -/

@[simp] theorem setPairFromEntry_pairA (e : Config.NoteEntry) : (s.setPairFromEntry e).pairA = BitVec.ofNat 32 e.a.val := rfl
@[simp] theorem setPairFromEntry_pairB (e : Config.NoteEntry) : (s.setPairFromEntry e).pairB = BitVec.ofNat 32 e.b.val := rfl
@[simp] theorem setPairFromEntry_sampleRate (e : Config.NoteEntry) : (s.setPairFromEntry e).sampleRate = s.sampleRate := rfl
@[simp] theorem setPairFromEntry_astableRun (e : Config.NoteEntry) : (s.setPairFromEntry e).astableRun = s.astableRun := rfl
@[simp] theorem setPairFromEntry_monostableRun (e : Config.NoteEntry) : (s.setPairFromEntry e).monostableRun = s.monostableRun := rfl
@[simp] theorem setPairFromEntry_outputLevel (e : Config.NoteEntry) : (s.setPairFromEntry e).outputLevel = s.outputLevel := rfl
@[simp] theorem setPairFromEntry_notes (e : Config.NoteEntry) : (s.setPairFromEntry e).notes = s.notes := rfl
@[simp] theorem setPairFromEntry_gain (e : Config.NoteEntry) : (s.setPairFromEntry e).gain = s.gain := rfl
@[simp] theorem setPairFromEntry_gestureActive (e : Config.NoteEntry) : (s.setPairFromEntry e).gestureActive = s.gestureActive := rfl
@[simp] theorem setPairFromEntry_busy (e : Config.NoteEntry) : (s.setPairFromEntry e).busy = s.busy := rfl
@[simp] theorem setPairFromEntry_blkLen (e : Config.NoteEntry) : (s.setPairFromEntry e).blkLen = s.blkLen := rfl
@[simp] theorem setPairFromEntry_sampleIdx (e : Config.NoteEntry) : (s.setPairFromEntry e).sampleIdx = s.sampleIdx := rfl
@[simp] theorem setPairFromEntry_eventIdx (e : Config.NoteEntry) : (s.setPairFromEntry e).eventIdx = s.eventIdx := rfl
@[simp] theorem setPairFromEntry_evbuf (e : Config.NoteEntry) : (s.setPairFromEntry e).evbuf = s.evbuf := rfl
@[simp] theorem setPairFromEntry_pendA (e : Config.NoteEntry) : (s.setPairFromEntry e).pendA = s.pendA := rfl
@[simp] theorem setPairFromEntry_pendB (e : Config.NoteEntry) : (s.setPairFromEntry e).pendB = s.pendB := rfl
@[simp] theorem setPairFromEntry_pendGain (e : Config.NoteEntry) : (s.setPairFromEntry e).pendGain = s.pendGain := rfl
@[simp] theorem setPairFromEntry_pendGesture (e : Config.NoteEntry) : (s.setPairFromEntry e).pendGesture = s.pendGesture := rfl
@[simp] theorem setPairFromEntry_port (e : Config.NoteEntry) : (s.setPairFromEntry e).port = s.port := rfl
@[simp] theorem setPairFromEntry_eventPort (e : Config.NoteEntry) : (s.setPairFromEntry e).eventPort = s.eventPort := rfl
@[simp] theorem setPairFromEntry_held (e : Config.NoteEntry) : (s.setPairFromEntry e).held = s.held := rfl
@[simp] theorem setPairFromEntry_schedule (e : Config.NoteEntry) : (s.setPairFromEntry e).schedule = s.schedule := rfl
@[simp] theorem setPairFromEntry_out (e : Config.NoteEntry) : (s.setPairFromEntry e).out = s.out := rfl
@[simp] theorem setPairFromEntry_finished (e : Config.NoteEntry) : (s.setPairFromEntry e).finished = s.finished := rfl

/-! ### setPending, field by field outside the FIFOs -/

@[simp] theorem setPending_pairA (f : Fifo) (ws : List Word) : (s.setPending f ws).pairA = s.pairA := by cases f <;> rfl
@[simp] theorem issue_pairA (f : Fifo) (w : Word) : (s.issue f w).pairA = s.pairA := by cases f <;> rfl
@[simp] theorem setPending_pairB (f : Fifo) (ws : List Word) : (s.setPending f ws).pairB = s.pairB := by cases f <;> rfl
@[simp] theorem issue_pairB (f : Fifo) (w : Word) : (s.issue f w).pairB = s.pairB := by cases f <;> rfl
@[simp] theorem setPending_sampleRate (f : Fifo) (ws : List Word) : (s.setPending f ws).sampleRate = s.sampleRate := by cases f <;> rfl
@[simp] theorem issue_sampleRate (f : Fifo) (w : Word) : (s.issue f w).sampleRate = s.sampleRate := by cases f <;> rfl
@[simp] theorem setPending_astableRun (f : Fifo) (ws : List Word) : (s.setPending f ws).astableRun = s.astableRun := by cases f <;> rfl
@[simp] theorem issue_astableRun (f : Fifo) (w : Word) : (s.issue f w).astableRun = s.astableRun := by cases f <;> rfl
@[simp] theorem setPending_monostableRun (f : Fifo) (ws : List Word) : (s.setPending f ws).monostableRun = s.monostableRun := by cases f <;> rfl
@[simp] theorem issue_monostableRun (f : Fifo) (w : Word) : (s.issue f w).monostableRun = s.monostableRun := by cases f <;> rfl
@[simp] theorem setPending_outputLevel (f : Fifo) (ws : List Word) : (s.setPending f ws).outputLevel = s.outputLevel := by cases f <;> rfl
@[simp] theorem issue_outputLevel (f : Fifo) (w : Word) : (s.issue f w).outputLevel = s.outputLevel := by cases f <;> rfl
@[simp] theorem setPending_notes (f : Fifo) (ws : List Word) : (s.setPending f ws).notes = s.notes := by cases f <;> rfl
@[simp] theorem issue_notes (f : Fifo) (w : Word) : (s.issue f w).notes = s.notes := by cases f <;> rfl
@[simp] theorem setPending_gain (f : Fifo) (ws : List Word) : (s.setPending f ws).gain = s.gain := by cases f <;> rfl
@[simp] theorem issue_gain (f : Fifo) (w : Word) : (s.issue f w).gain = s.gain := by cases f <;> rfl
@[simp] theorem setPending_gestureActive (f : Fifo) (ws : List Word) : (s.setPending f ws).gestureActive = s.gestureActive := by cases f <;> rfl
@[simp] theorem issue_gestureActive (f : Fifo) (w : Word) : (s.issue f w).gestureActive = s.gestureActive := by cases f <;> rfl
@[simp] theorem setPending_busy (f : Fifo) (ws : List Word) : (s.setPending f ws).busy = s.busy := by cases f <;> rfl
@[simp] theorem issue_busy (f : Fifo) (w : Word) : (s.issue f w).busy = s.busy := by cases f <;> rfl
@[simp] theorem setPending_blkLen (f : Fifo) (ws : List Word) : (s.setPending f ws).blkLen = s.blkLen := by cases f <;> rfl
@[simp] theorem issue_blkLen (f : Fifo) (w : Word) : (s.issue f w).blkLen = s.blkLen := by cases f <;> rfl
@[simp] theorem setPending_sampleIdx (f : Fifo) (ws : List Word) : (s.setPending f ws).sampleIdx = s.sampleIdx := by cases f <;> rfl
@[simp] theorem issue_sampleIdx (f : Fifo) (w : Word) : (s.issue f w).sampleIdx = s.sampleIdx := by cases f <;> rfl
@[simp] theorem setPending_eventIdx (f : Fifo) (ws : List Word) : (s.setPending f ws).eventIdx = s.eventIdx := by cases f <;> rfl
@[simp] theorem issue_eventIdx (f : Fifo) (w : Word) : (s.issue f w).eventIdx = s.eventIdx := by cases f <;> rfl
@[simp] theorem setPending_evbuf (f : Fifo) (ws : List Word) : (s.setPending f ws).evbuf = s.evbuf := by cases f <;> rfl
@[simp] theorem issue_evbuf (f : Fifo) (w : Word) : (s.issue f w).evbuf = s.evbuf := by cases f <;> rfl
@[simp] theorem setPending_port (f : Fifo) (ws : List Word) : (s.setPending f ws).port = s.port := by cases f <;> rfl
@[simp] theorem issue_port (f : Fifo) (w : Word) : (s.issue f w).port = s.port := by cases f <;> rfl
@[simp] theorem setPending_eventPort (f : Fifo) (ws : List Word) : (s.setPending f ws).eventPort = s.eventPort := by cases f <;> rfl
@[simp] theorem issue_eventPort (f : Fifo) (w : Word) : (s.issue f w).eventPort = s.eventPort := by cases f <;> rfl
@[simp] theorem setPending_held (f : Fifo) (ws : List Word) : (s.setPending f ws).held = s.held := by cases f <;> rfl
@[simp] theorem issue_held (f : Fifo) (w : Word) : (s.issue f w).held = s.held := by cases f <;> rfl
@[simp] theorem setPending_schedule (f : Fifo) (ws : List Word) : (s.setPending f ws).schedule = s.schedule := by cases f <;> rfl
@[simp] theorem issue_schedule (f : Fifo) (w : Word) : (s.issue f w).schedule = s.schedule := by cases f <;> rfl
@[simp] theorem setPending_out (f : Fifo) (ws : List Word) : (s.setPending f ws).out = s.out := by cases f <;> rfl
@[simp] theorem issue_out (f : Fifo) (w : Word) : (s.issue f w).out = s.out := by cases f <;> rfl
@[simp] theorem setPending_finished (f : Fifo) (ws : List Word) : (s.setPending f ws).finished = s.finished := by cases f <;> rfl
@[simp] theorem issue_finished (f : Fifo) (w : Word) : (s.issue f w).finished = s.finished := by cases f <;> rfl

/-! ### resetEngine -/

@[simp] theorem resetEngine_pairA : s.resetEngine.pairA = State.reset.pairA := rfl
@[simp] theorem resetEngine_pairB : s.resetEngine.pairB = State.reset.pairB := rfl
@[simp] theorem resetEngine_sampleRate : s.resetEngine.sampleRate = State.reset.sampleRate := rfl
@[simp] theorem resetEngine_astableRun : s.resetEngine.astableRun = State.reset.astableRun := rfl
@[simp] theorem resetEngine_monostableRun : s.resetEngine.monostableRun = State.reset.monostableRun := rfl
@[simp] theorem resetEngine_outputLevel : s.resetEngine.outputLevel = State.reset.outputLevel := rfl
@[simp] theorem resetEngine_notes : s.resetEngine.notes = State.reset.notes := rfl
@[simp] theorem resetEngine_gain : s.resetEngine.gain = State.reset.gain := rfl
@[simp] theorem resetEngine_gestureActive : s.resetEngine.gestureActive = State.reset.gestureActive := rfl
@[simp] theorem resetEngine_busy : s.resetEngine.busy = State.reset.busy := rfl
@[simp] theorem resetEngine_blkLen : s.resetEngine.blkLen = State.reset.blkLen := rfl
@[simp] theorem resetEngine_sampleIdx : s.resetEngine.sampleIdx = State.reset.sampleIdx := rfl
@[simp] theorem resetEngine_eventIdx : s.resetEngine.eventIdx = State.reset.eventIdx := rfl
@[simp] theorem resetEngine_evbuf : s.resetEngine.evbuf = State.reset.evbuf := rfl
@[simp] theorem resetEngine_pendA : s.resetEngine.pendA = State.reset.pendA := rfl
@[simp] theorem resetEngine_pendB : s.resetEngine.pendB = State.reset.pendB := rfl
@[simp] theorem resetEngine_pendGain : s.resetEngine.pendGain = State.reset.pendGain := rfl
@[simp] theorem resetEngine_pendGesture : s.resetEngine.pendGesture = State.reset.pendGesture := rfl
@[simp] theorem resetEngine_port : s.resetEngine.port = s.port := rfl
@[simp] theorem resetEngine_eventPort : s.resetEngine.eventPort = s.eventPort := rfl
@[simp] theorem resetEngine_held : s.resetEngine.held = s.held := rfl
@[simp] theorem resetEngine_schedule : s.resetEngine.schedule = s.schedule := rfl
@[simp] theorem resetEngine_out : s.resetEngine.out = State.reset.out := rfl
@[simp] theorem resetEngine_finished : s.resetEngine.finished = s.finished := rfl

/-! ### The pending FIFOs through their one accessor -/

@[simp] theorem pending_setPending_same (f : Fifo) (ws : List Word) : (s.setPending f ws).pending f = ws := by
  cases f <;> rfl

theorem pending_setPending_other (f g : Fifo) (ws : List Word) (h : g ≠ f) :
    (s.setPending f ws).pending g = s.pending g := by
  cases f <;> cases g <;> first | rfl | exact absurd rfl h

@[simp] theorem pending_issue_same (f : Fifo) (w : Word) : (s.issue f w).pending f = s.pending f ++ [w] := by
  cases f <;> rfl

theorem pending_issue_other (f g : Fifo) (w : Word) (h : g ≠ f) : (s.issue f w).pending g = s.pending g :=
  pending_setPending_other s f g _ h

@[simp] theorem setPair_pending (a b : Word) (f : Fifo) : (s.setPair a b).pending f = s.pending f := by cases f <;> rfl
@[simp] theorem setPairA_pending (a : Word) (f : Fifo) : (s.setPairA a).pending f = s.pending f := by cases f <;> rfl
@[simp] theorem setPairB_pending (b : Word) (f : Fifo) : (s.setPairB b).pending f = s.pending f := by cases f <;> rfl
@[simp] theorem setNotes_pending (ns : NoteSet) (f : Fifo) : (s.setNotes ns).pending f = s.pending f := by cases f <;> rfl
@[simp] theorem setGainReg_pending (g : Word) (f : Fifo) : (s.setGainReg g).pending f = s.pending f := by cases f <;> rfl
@[simp] theorem setGestureReg_pending (g : Bool) (f : Fifo) : (s.setGestureReg g).pending f = s.pending f := by cases f <;> rfl
@[simp] theorem setRateReg_pending (r : Word) (f : Fifo) : (s.setRateReg r).pending f = s.pending f := by cases f <;> rfl
@[simp] theorem setCounters_pending (a m : Word) (f : Fifo) : (s.setCounters a m).pending f = s.pending f := by cases f <;> rfl
@[simp] theorem setLevel_pending (l : Bool) (f : Fifo) : (s.setLevel l).pending f = s.pending f := by cases f <;> rfl
@[simp] theorem dropMove_pending (f : Fifo) : s.dropMove.pending f = s.pending f := by cases f <;> rfl
@[simp] theorem dropArrival_pending (f : Fifo) : s.dropArrival.pending f = s.pending f := by cases f <;> rfl
@[simp] theorem dropHeld_pending (f : Fifo) : s.dropHeld.pending f = s.pending f := by cases f <;> rfl
@[simp] theorem hold_pending (c : HeldCommand) (f : Fifo) : (s.hold c).pending f = s.pending f := by cases f <;> rfl
@[simp] theorem advanceEvent_pending (f : Fifo) : s.advanceEvent.pending f = s.pending f := by cases f <;> rfl
@[simp] theorem advanceSample_pending (f : Fifo) : s.advanceSample.pending f = s.pending f := by cases f <;> rfl
@[simp] theorem beginBlock_pending (l : Word) (es : List EventRecord) (f : Fifo) : (s.beginBlock l es).pending f = s.pending f := by cases f <;> rfl
@[simp] theorem endBlock_pending (f : Fifo) : s.endBlock.pending f = s.pending f := by cases f <;> rfl
@[simp] theorem outWrite_pending (v : Word) (f : Fifo) : (s.outWrite v).pending f = s.pending f := by cases f <;> rfl
@[simp] theorem setPairFromEntry_pending (e : Config.NoteEntry) (f : Fifo) : (s.setPairFromEntry e).pending f = s.pending f := by cases f <;> rfl

/-! ### Timings and the governing conditions depend on few fields -/

@[simp] theorem dropMove_timings : s.dropMove.timings = s.timings := rfl
@[simp] theorem setLevel_timings (l : Bool) : (s.setLevel l).timings = s.timings := rfl
@[simp] theorem setCounters_timings (a m : Word) : (s.setCounters a m).timings = s.timings := rfl
@[simp] theorem outWrite_timings (v : Word) : (s.outWrite v).timings = s.timings := rfl
@[simp] theorem advanceSample_timings : s.advanceSample.timings = s.timings := rfl
@[simp] theorem advanceEvent_timings : s.advanceEvent.timings = s.timings := rfl
@[simp] theorem dropMove_eventRead : s.dropMove.eventRead = s.eventRead := rfl
@[simp] theorem dropMove_dueEvent : s.dropMove.dueEvent = s.dueEvent := rfl
@[simp] theorem dropMove_mustHold : s.dropMove.mustHold = s.mustHold := rfl
@[simp] theorem dropArrival_mustHold : s.dropArrival.mustHold = s.mustHold := rfl
@[simp] theorem advanceEvent_mustHold : s.advanceEvent.mustHold = s.mustHold := rfl

end Sys2Proof.Machine
end

