-- ==== Sys2Proof/Laws/Ops.lean ====
section
/-! SUPPORT. One lemma per shared operation that says once what it can do: the integer primitives, the operand forms, the note set, the timer circuit. -/

namespace Sys2Proof.Machine

/-! ### Integer primitives (R8) -/

/-- `RoundHalfUp(n, d)` is the one integer within half of n/d, a half going up. -/
theorem roundHalfUp_spec (n d : Nat) (hd : 0 < d) :
    2 * d * roundHalfUp n d ≤ 2 * n + d ∧ 2 * n + d < 2 * d * (roundHalfUp n d + 1) := by
  unfold roundHalfUp
  constructor
  · exact Nat.mul_div_le _ _
  · exact Nat.lt_mul_div_succ _ (by omega)

theorem roundHalfUp_mono {n m : Nat} (d : Nat) (h : n ≤ m) : roundHalfUp n d ≤ roundHalfUp m d :=
  Nat.div_le_div_right (by omega)

@[simp] theorem roundHalfUp_zero (d : Nat) : roundHalfUp 0 d = 0 := by
  unfold roundHalfUp
  rcases Nat.eq_zero_or_pos d with rfl | h
  · rfl
  · exact Nat.div_eq_of_lt (by omega)

/-- `ceil_div(a, b)` is the least integer at or above a/b. -/
theorem ceilDiv_spec (a b : Int) (hb : 0 < b) : a ≤ b * ceilDiv a b ∧ b * ceilDiv a b < a + b := by
  unfold ceilDiv
  have h1 := Int.mul_ediv_add_emod (a + b - 1) b
  have h2 := Int.emod_nonneg (a + b - 1) (by omega : b ≠ 0)
  have h3 := Int.emod_lt_of_pos (a + b - 1) hb
  omega

theorem clamp_bounds (v lo hi : Int) (h : lo ≤ hi) : lo ≤ clamp v lo hi ∧ clamp v lo hi ≤ hi := by
  unfold clamp; split <;> [skip; split] <;> omega

theorem saturate_toNat (v : Nat) : (saturate v).toNat = min v Config.u32Max := by
  unfold saturate Config.u32Max
  simp only [BitVec.toNat_ofNat]
  exact Nat.mod_eq_of_lt (by omega)

theorem storeInt_toNat (v : Int) (h : v.toNat < 2 ^ 32) : (storeInt v).toNat = v.toNat := by
  unfold storeInt
  rw [BitVec.toNat_ofNat, Nat.mod_eq_of_lt h]

theorem ofNat32_toNat (v : Nat) (h : v < 2 ^ 32) : (BitVec.ofNat 32 v).toNat = v := by
  rw [BitVec.toNat_ofNat, Nat.mod_eq_of_lt h]

/-! ### Operand forms (R170 to R173) -/

theorem potOperand_toNat (w : Word) : ((potOperand w).toNat : Int) = clamp w.toInt 0 Config.potMax := by
  have h := clamp_bounds w.toInt 0 Config.potMax (by decide)
  unfold potOperand
  rw [storeInt_toNat _ (by have := h.2; unfold Config.potMax at *; omega)]
  exact Int.toNat_of_nonneg h.1

theorem potOperand_le (w : Word) : (potOperand w).toNat ≤ Config.potMax := by
  have h := clamp_bounds w.toInt 0 Config.potMax (by decide)
  have := potOperand_toNat w
  omega

theorem magnitude32_toNat (u : Word) : (magnitude32 u).toNat = u.toNat % 2 ^ 31 := by
  simp [magnitude32, BitVec.extractLsb'_toNat]

theorem isNeg32_iff (u : Word) : isNeg32 u = true ↔ 2 ^ 31 ≤ u.toNat := by
  have := u.isLt
  have h : u.getLsbD 31 = u.msb := by simp [BitVec.msb_eq_getLsbD_last]
  rw [isNeg32, h, BitVec.msb_eq_decide]
  simp

/-- SET_GAIN's clamp, by the word's value (R172). -/
theorem gainOperand_spec (u : Word) :
    gainOperand u =
      if 0x7F800000 < u.toNat % 2 ^ 31 then 0#32
      else if 2 ^ 31 ≤ u.toNat ∨ u.toNat = 0 then 0#32
      else if 0x3F800000 ≤ u.toNat then 0x3F800000#32
      else u := by
  have hn := isNeg32_iff u
  have h0 : (u == 0#32) = decide (u.toNat = 0) := by
    simp [BitVec.toNat_eq, Bool.beq_eq_decide_eq]
  have hnan : isNaN32 u = decide (0x7F800000 < u.toNat % 2 ^ 31) := by
    simp [isNaN32, BitVec.lt_def, magnitude32_toNat]
  have hge : geOne32 u = (!isNeg32 u && decide (0x3F800000 ≤ u.toNat % 2 ^ 31)) := by
    simp [geOne32, isNeg32, BitVec.le_def, magnitude32_toNat]
  unfold gainOperand
  rw [hnan, hge, h0]
  cases hb : isNeg32 u
  · have hlt : u.toNat < 2 ^ 31 := by
      rw [hb] at hn; simp at hn; omega
    have hmod : u.toNat % 2 ^ 31 = u.toNat := Nat.mod_eq_of_lt hlt
    have hnot : ¬ 2 ^ 31 ≤ u.toNat := by omega
    simp only [hmod, Bool.false_or, Bool.not_false, Bool.true_and, decide_eq_true_eq, hnot, false_or]
  · have hge : 2 ^ 31 ≤ u.toNat := hn.mp hb
    simp only [Bool.true_or, if_true, hge, true_or, decide_eq_true_eq]

theorem gainOperand_le (u : Word) : (gainOperand u).toNat ≤ Config.floatOne.toNat := by
  rw [gainOperand_spec]
  repeat' split
  all_goals first | decide | (have : Config.floatOne.toNat = 0x3F800000 := by decide); omega

/-! ### The output mux (R151) -/

theorem neg32_magnitude (u : Word) : magnitude32 (neg32 u) = magnitude32 u := by
  unfold magnitude32 neg32
  ext i hi
  simp only [BitVec.getElem_extractLsb', BitVec.getLsbD_xor, Nat.zero_add]
  have : (0x80000000#32).getLsbD i = false := by
    have h : ∀ j : Fin 31, (0x80000000#32).getLsbD j.val = false := by decide
    exact h ⟨i, hi⟩
  simp [this]

/-- The mux emits silence, `gain` or `Neg32(gain)`, and which (R81, R151). -/
theorem mux_cases (e g l : Bool) (w : Word) :
    (e = true ∧ g = false ∧ mux e g l w = 0x00000000#32) ∨
      ((e = false ∨ g = true) ∧ l = true ∧ mux e g l w = w) ∨
      ((e = false ∨ g = true) ∧ l = false ∧ mux e g l w = neg32 w) := by
  cases e <;> cases g <;> cases l <;> simp [mux]

/-! ### The note set (R110 to R115) -/

/-- A word with exactly the bit of note `n`. -/
theorem noteBit_getLsbD (n : Note) (b : Nat) (hb : b < 32) :
    (noteBit n).getLsbD b = decide (b = (n.extractLsb' 0 5).toNat) := by
  unfold noteBit
  have hn : (n.extractLsb' 0 5).toNat < 32 := (n.extractLsb' 0 5).isLt
  rw [BitVec.getLsbD_shiftLeft, BitVec.getLsbD_one]
  rw [Bool.eq_iff_iff]
  simp only [Bool.and_eq_true, decide_eq_true_eq, Bool.not_eq_true', decide_eq_false_iff_not]
  omega

/-- Every word of the empty set is 0 (R27). -/
@[simp] theorem empty_word (j : BitVec 2) : NoteSet.empty.word j = 0#32 := by
  simp [NoteSet.empty, NoteSet.word]

theorem word_setWord (ns : NoteSet) (i j : BitVec 2) (w : Word) :
    (ns.setWord i w).word j = if j = i then w else ns.word j := by
  unfold NoteSet.setWord NoteSet.word
  rw [Vector.getElem_set]
  by_cases h : j = i
  · rw [if_pos h, if_pos (congrArg BitVec.toNat h).symm]
  · rw [if_neg h, if_neg fun he => h (BitVec.eq_of_toNat_eq he.symm)]

/-- A note is its word index and its bit index (R110). -/
theorem note_ext (n m : Note) :
    n = m ↔ noteWordIndex m = noteWordIndex n ∧ (m.extractLsb' 0 5).toNat = (n.extractLsb' 0 5).toNat := by
  constructor
  · rintro rfl; exact ⟨rfl, rfl⟩
  · rintro ⟨h1, h2⟩
    have h1' := congrArg BitVec.toNat h1
    simp only [noteWordIndex, BitVec.extractLsb'_toNat, Nat.shiftRight_eq_div_pow] at h1' h2
    apply BitVec.eq_of_toNat_eq
    have := n.isLt; have := m.isLt
    omega

/-- NS_SET adds exactly its note (R111). -/
theorem held_set (ns : NoteSet) (n m : Note) :
    (ns.set n).held m = (decide (m = n) || ns.held m) := by
  have hm : (m.extractLsb' 0 5).toNat < 32 := (m.extractLsb' 0 5).isLt
  unfold NoteSet.set NoteSet.held
  rw [word_setWord]
  by_cases hw : noteWordIndex m = noteWordIndex n
  · rw [if_pos hw, BitVec.getLsbD_or, noteBit_getLsbD n _ hm, ← hw]
    have : decide ((m.extractLsb' 0 5).toNat = (n.extractLsb' 0 5).toNat) = decide (m = n) := by
      rw [decide_eq_decide, eq_comm (a := m), note_ext n m]
      exact ⟨fun h => ⟨hw, h⟩, fun h => h.2⟩
    rw [this, Bool.or_comm]
  · rw [if_neg hw]
    have : decide (m = n) = false := by
      rw [decide_eq_false_iff_not]; rintro rfl; exact hw rfl
    rw [this, Bool.false_or]

/-- NS_CLEAR removes exactly its note (R112). -/
theorem held_clear (ns : NoteSet) (n m : Note) :
    (ns.clear n).held m = (!decide (m = n) && ns.held m) := by
  have hm : (m.extractLsb' 0 5).toNat < 32 := (m.extractLsb' 0 5).isLt
  unfold NoteSet.clear NoteSet.held
  rw [word_setWord]
  by_cases hw : noteWordIndex m = noteWordIndex n
  · rw [if_pos hw, BitVec.getLsbD_and, BitVec.getLsbD_not, noteBit_getLsbD n _ hm, ← hw]
    have : decide ((m.extractLsb' 0 5).toNat = (n.extractLsb' 0 5).toNat) = decide (m = n) := by
      rw [decide_eq_decide, eq_comm (a := m), note_ext n m]
      exact ⟨fun h => ⟨hw, h⟩, fun h => h.2⟩
    rw [this, Bool.and_comm, decide_eq_true hm, Bool.true_and]
  · rw [if_neg hw]
    have : decide (m = n) = false := by
      rw [decide_eq_false_iff_not]; rintro rfl; exact hw rfl
    rw [this]; simp

/-- The first 1 bit from below, or no 1 bit at all. -/
theorem lowestBit_spec (w : Word) :
    (lowestBit w = none ∧ w = 0#32) ∨
      ∃ b, lowestBit w = some b ∧ b < 32 ∧ w.getLsbD b = true ∧ ∀ c, c < b → w.getLsbD c = false := by
  unfold lowestBit
  cases h : (List.range 32).find? fun b => w.getLsbD b with
  | none =>
    left
    refine ⟨rfl, ?_⟩
    rw [List.find?_eq_none] at h
    apply BitVec.eq_of_getLsbD_eq
    intro i hi
    have := h i (by simpa using hi)
    simpa using this
  | some b =>
    right
    rw [List.find?_eq_some_iff_getElem] at h
    obtain ⟨hb, i, hi, hib, hlt⟩ := h
    simp only [List.getElem_range] at hib hlt
    subst hib
    refine ⟨i, rfl, by simpa using hi, hb, fun c hc => ?_⟩
    simpa using hlt c hc

/-- The scan of R113 over the words from note `base`: the first held one, or `NONE`. -/
theorem scanWords_spec (base : Nat) (ws : List Word) :
    (scanWords base ws = Config.noteCount ∧ ∀ w ∈ ws, w = 0#32) ∨
      ∃ j b, ∃ h : j < ws.length, scanWords base ws = base + 32 * j + b ∧ b < 32 ∧
        ws[j].getLsbD b = true ∧ (∀ c, c < b → ws[j].getLsbD c = false) ∧
        ∀ i (hi : i < ws.length), i < j → ws[i] = 0#32 := by
  induction ws generalizing base with
  | nil => left; exact ⟨rfl, by simp⟩
  | cons w ws ih =>
    rcases lowestBit_spec w with ⟨hn, hw⟩ | ⟨b, hs, hb, hbit, hlow⟩
    · simp only [scanWords, hn]
      rcases ih (base + 32) with ⟨hr, hz⟩ | ⟨j, b, hj, hr, hb, hbit, hlow, hz⟩
      · left
        exact ⟨hr, by simpa [hw] using hz⟩
      · right
        refine ⟨j + 1, b, by simpa using hj, by rw [hr]; ring, hb, by simpa using hbit, by simpa using hlow, ?_⟩
        intro i hi hij
        cases i with
        | zero => simpa using hw
        | succ i => simpa using hz i (by simpa using hi) (by omega)
    · right
      refine ⟨0, b, by simp, by simp [scanWords, hs], hb, by simpa using hbit, by simpa using hlow, ?_⟩
      intro i _ hi; omega

/-- A note is held when the bit `n mod 32` of word `n div 32` is 1 (R27, R110). -/
theorem held_eq_getElem (ns : NoteSet) (n : Note) :
    ns.held n = (ns.words.toList[n.toNat / 32]'(by
      have := n.isLt; simp [Config.memberWords]; omega)).getLsbD (n.toNat % 32) := by
  have hlt := n.isLt
  have hj : (noteWordIndex n).toNat = n.toNat / 32 := by
    simp only [noteWordIndex, BitVec.extractLsb'_toNat, Nat.shiftRight_eq_div_pow]
    omega
  have hb : (n.extractLsb' 0 5).toNat = n.toNat % 32 := by
    simp only [BitVec.extractLsb'_toNat, Nat.shiftRight_eq_div_pow]
    omega
  unfold NoteSet.held NoteSet.word
  rw [hb]
  simp only [hj, Vector.getElem_toList]

/-- The OR of words is 0 when every one of them is. -/
theorem foldl_or_eq_zero (ws : List Word) (a : Word) :
    ws.foldl (· ||| ·) a = 0#32 ↔ a = 0#32 ∧ ∀ w ∈ ws, w = 0#32 := by
  induction ws generalizing a with
  | nil => simp
  | cons w ws ih => rw [List.foldl_cons, ih, BitVec.or_eq_zero_iff, List.forall_mem_cons, and_assoc]

theorem isEmpty_iff (ns : NoteSet) : ns.isEmpty = true ↔ ∀ w ∈ ns.words.toList, w = 0#32 := by
  unfold NoteSet.isEmpty
  rw [beq_iff_eq, foldl_or_eq_zero]
  exact ⟨fun h => h.2, fun h => ⟨rfl, h⟩⟩

/-- No note is held exactly when each of the four membership words is 0 (R114). -/
theorem isEmpty_iff_words (ns : NoteSet) : ns.isEmpty = true ↔ ∀ j : BitVec 2, ns.word j = 0#32 := by
  rw [isEmpty_iff]
  constructor
  · intro h j
    exact h _ (by unfold NoteSet.word; simp)
  · intro h w hw
    obtain ⟨i, hi, rfl⟩ := List.getElem_of_mem hw
    have hi4 : i < 4 := by simpa using hi
    have := h (BitVec.ofNat 2 i)
    unfold NoteSet.word at this
    simp only [BitVec.toNat_ofNat, Nat.mod_eq_of_lt (show i < 2 ^ 2 from hi4)] at this
    simpa using this

/-- What NS_EMPTY and NS_LOWEST say (R113, R114, R115): either no note is held and the scan answers
`NONE` = 128, or it answers the smallest held note. -/
theorem lowest_spec (ns : NoteSet) :
    (ns.isEmpty = true ∧ ns.lowest = 128 ∧ ∀ n, ns.held n = false) ∨
      (ns.isEmpty = false ∧ ∃ n : Note, ns.lowest = n.toNat ∧ ns.held n = true ∧
        ∀ m, ns.held m = true → n.toNat ≤ m.toNat) := by
  rcases scanWords_spec 0 ns.words.toList with ⟨hr, hz⟩ | ⟨j, b, hj, hr, hb, hbit, hlow, hz⟩
  · left
    refine ⟨(isEmpty_iff ns).mpr hz, hr, fun n => ?_⟩
    rw [held_eq_getElem, hz _ (List.getElem_mem _)]
    simp
  · right
    have hj4 : j < 4 := by simpa using hj
    have hval : ns.lowest = 32 * j + b := by unfold NoteSet.lowest; rw [hr]; omega
    refine ⟨?_, BitVec.ofNat 7 (32 * j + b), ?_, ?_, ?_⟩
    · rw [Bool.eq_false_iff]
      intro he
      rw [(isEmpty_iff ns).mp he _ (List.getElem_mem hj)] at hbit
      simp at hbit
    · rw [hval, BitVec.toNat_ofNat, Nat.mod_eq_of_lt (by omega)]
    · have hn : (BitVec.ofNat 7 (32 * j + b)).toNat = 32 * j + b := by
        rw [BitVec.toNat_ofNat, Nat.mod_eq_of_lt (by omega)]
      rw [held_eq_getElem]
      have h1 : (32 * j + b) / 32 = j := by omega
      have h2 : (32 * j + b) % 32 = b := by omega
      simp only [hn, h1, h2]
      exact hbit
    · intro m hm
      have hn : (BitVec.ofNat 7 (32 * j + b)).toNat = 32 * j + b := by
        rw [BitVec.toNat_ofNat, Nat.mod_eq_of_lt (by omega)]
      rw [held_eq_getElem] at hm
      rw [hn]
      by_contra hlt
      rcases Nat.lt_or_ge (m.toNat / 32) j with h | h
      · rw [hz _ (by have := m.isLt; simp [Config.memberWords]; omega) h] at hm
        simp at hm
      · have hjm : m.toNat / 32 = j := by omega
        have := hlow (m.toNat % 32) (by omega)
        simp only [hjm] at hm
        rw [this] at hm
        exact absurd hm (by decide)

/-! ### The timer circuit (R100 to R105) -/

/-- `astable_high`: rewrite with this before any arithmetic, so that the scales stay literals (R101). -/
theorem retune_astableHigh (a b sr : Nat) :
    (retune a b sr).astableHigh = roundHalfUp (693 * (a + 1000) * sr) (10 ^ 11) := rfl

/-- `astable_low` (R102). -/
theorem retune_astableLow (a b sr : Nat) :
    (retune a b sr).astableLow = roundHalfUp (693 * a * sr) (10 ^ 11) := rfl

/-- `monostable_high` (R103). -/
theorem retune_monostableHigh (a b sr : Nat) :
    (retune a b sr).monostableHigh = roundHalfUp (693 * b * sr) (10 ^ 10) := rfl

@[simp] theorem retune_zero_rate (a b : Nat) : retune a b 0 = ⟨0, 0, 0⟩ := by
  simp [retune]

theorem entry_a_toNat (e : Config.NoteEntry) : (BitVec.ofNat 32 e.a.val).toNat = e.a.val :=
  ofNat32_toNat _ (by have := e.a.isLt; unfold Config.potMax at this; omega)

theorem entry_b_toNat (e : Config.NoteEntry) : (BitVec.ofNat 32 e.b.val).toNat = e.b.val :=
  ofNat32_toNat _ (by have := e.b.isLt; unfold Config.potMax at this; omega)

/-! ### The bend (R123) -/

/-- The bent value stays in [0, POT_MAX] (R123, R36). -/
theorem bentB_bounds (c : Nat) (v : BendValue) (hc : c ≤ Config.potMax) :
    0 ≤ bentB c (bendOperand v) ∧ bentB c (bendOperand v) ≤ Config.potMax := by
  have hv := v.isLt
  have hlo : -8192 ≤ bendOperand v := by unfold bendOperand Config.bendCenter; omega
  have hhi : bendOperand v ≤ 8191 := by unfold bendOperand Config.bendCenter; omega
  have hc' : (c : Int) ≤ Config.potMax := by exact_mod_cast hc
  generalize bendOperand v = d at *
  unfold bentB
  split
  · rename_i hd
    have hs := ceilDiv_spec (d * c) 8192 (by decide)
    have h1 : 0 ≤ d * c := by positivity
    have h2 : d * c ≤ 8191 * c := by nlinarith
    constructor <;> omega
  · rename_i hd
    have h1 : 0 ≤ (-d) * (Config.potMax - c) := by
      apply mul_nonneg <;> omega
    have h2 : (-d) * (Config.potMax - c) ≤ 8192 * (Config.potMax - c) := by
      apply mul_le_mul_of_nonneg_right <;> omega
    have h3 := Int.mul_ediv_add_emod ((-d) * (Config.potMax - c)) 8192
    have h4 := Int.emod_nonneg ((-d) * (Config.potMax - c)) (by decide : (8192 : Int) ≠ 0)
    have h5 := Int.emod_lt_of_pos ((-d) * (Config.potMax - c)) (by decide : (0 : Int) < 8192)
    constructor <;> omega

end Sys2Proof.Machine
end

