-- ==== Sys2Proof/Laws/PerInstr.lean ====
section
/-! SUPPORT. Statements about every constructor of Instr, one lemma each: the encoded word of an operation fits its row of spec/opcode_table.json (its width, its match under its mask). -/

namespace Sys2Proof.Laws

/-- A row of spec/opcode_table.json. -/
structure OpcodeRow where
  width : Nat
  mask : Nat
  value : Nat
  deriving DecidableEq, Repr

/-- The row an operation is a constructor for, copied from the table. -/
def opcodeRow : Instr → OpcodeRow
  | .setPotA _ => ⟨40, 0xFF00000000, 0x0100000000⟩
  | .setPotB _ => ⟨40, 0xFF00000000, 0x0200000000⟩
  | .setGain _ => ⟨40, 0xFF00000000, 0x0300000000⟩
  | .setGesture _ => ⟨40, 0xFF00000000, 0x0400000000⟩
  | .setSampleRate _ => ⟨40, 0xFF00000000, 0x0500000000⟩
  | .renderBlock _ => ⟨40, 0xFF00000000, 0x0600000000⟩
  | .reserved00 _ => ⟨40, 0xFF00000000, 0x0000000000⟩
  | .reserved07 _ => ⟨40, 0xFF00000000, 0x0700000000⟩
  | .reserved08 _ _ => ⟨40, 0xF800000000, 0x0800000000⟩
  | .reserved10 _ _ => ⟨40, 0xF000000000, 0x1000000000⟩
  | .reserved20 _ _ => ⟨40, 0xE000000000, 0x2000000000⟩
  | .reserved40 _ _ => ⟨40, 0xC000000000, 0x4000000000⟩
  | .reserved80 _ _ => ⟨40, 0x8000000000, 0x8000000000⟩
  | .noteOff _ _ _ _ => ⟨64, 0xFF0080F000000000, 0x0300008000000000⟩
  | .noteOn _ _ _ _ => ⟨64, 0xFF0080F000000000, 0x0300009000000000⟩
  | .pitchBend _ _ _ => ⟨64, 0xFF8080F000000000, 0x030000E000000000⟩
  | .ignored _ _ _ _ _ => ⟨64, 0x0000000000000000, 0x0000000000000000⟩
  | .reset => ⟨1, 0x1, 0x1⟩

/-- The encoded word lies within the row's width and shows the row's match under its mask. -/
def MatchesRow.Statement (i : Instr) : Prop :=
  i.wellFormed = true →
    encodeNat i < 2 ^ (opcodeRow i).width ∧ encodeNat i &&& (opcodeRow i).mask = (opcodeRow i).value

/-- A command word shows what its opcode shows. -/
theorem command_matches (op : BitVec 8) (x : Word) (m v : Nat) (h : op.toNat &&& m = v) :
    (commandWord op x).toNat < 2 ^ 40 ∧ (commandWord op x).toNat &&& 2 ^ 32 * m = 2 ^ 32 * v := by
  refine ⟨(commandWord op x).isLt, ?_⟩
  have := land_split 32 op.toNat x.toNat m 0 x.isLt (by decide)
  rw [commandWord_toNat, ← h]
  simpa using this

/-- A record shows what its four bytes show. -/
theorem event_matches (nb d2 d1 st : Byte) (o : Word) (mnb md2 md1 mst v : Nat)
    (h2 : md2 < 2 ^ 8) (h1 : md1 < 2 ^ 8) (hs : mst < 2 ^ 8)
    (h : 2 ^ 8 * (2 ^ 8 * (2 ^ 8 * (nb.toNat &&& mnb) + (d2.toNat &&& md2)) + (d1.toNat &&& md1))
      + (st.toNat &&& mst) = v) :
    (eventRecord nb d2 d1 st o).toNat < 2 ^ 64 ∧
      (eventRecord nb d2 d1 st o).toNat &&&
          2 ^ 32 * (2 ^ 8 * (2 ^ 8 * (2 ^ 8 * mnb + md2) + md1) + mst) = 2 ^ 32 * v := by
  refine ⟨(eventRecord nb d2 d1 st o).isLt, ?_⟩
  have := land_split 32 (2 ^ 8 * (2 ^ 8 * (2 ^ 8 * nb.toNat + d2.toNat) + d1.toNat) + st.toNat) o.toNat
    (2 ^ 8 * (2 ^ 8 * (2 ^ 8 * mnb + md2) + md1) + mst) 0 o.isLt (by decide)
  rw [eventRecord_toNat, ← h, ← land_split 8 nb.toNat d2.toNat mnb md2 d2.isLt h2,
    ← land_split 8 _ d1.toNat _ md1 d1.isLt h1, ← land_split 8 _ st.toNat _ mst st.isLt hs]
  simpa using this

theorem MatchesRow.setPotA (x : Word) : MatchesRow.Statement (.setPotA x) :=
  fun _ => command_matches 0x01#8 x 0xFF 0x01 (by decide)

theorem MatchesRow.setPotB (x : Word) : MatchesRow.Statement (.setPotB x) :=
  fun _ => command_matches 0x02#8 x 0xFF 0x02 (by decide)

theorem MatchesRow.setGain (x : Word) : MatchesRow.Statement (.setGain x) :=
  fun _ => command_matches 0x03#8 x 0xFF 0x03 (by decide)

theorem MatchesRow.setGesture (x : Word) : MatchesRow.Statement (.setGesture x) :=
  fun _ => command_matches 0x04#8 x 0xFF 0x04 (by decide)

theorem MatchesRow.setSampleRate (x : Word) : MatchesRow.Statement (.setSampleRate x) :=
  fun _ => command_matches 0x05#8 x 0xFF 0x05 (by decide)

theorem MatchesRow.renderBlock (x : Word) : MatchesRow.Statement (.renderBlock x) :=
  fun _ => command_matches 0x06#8 x 0xFF 0x06 (by decide)

theorem MatchesRow.reserved00 (x : Word) : MatchesRow.Statement (.reserved00 x) :=
  fun _ => command_matches 0x00#8 x 0xFF 0x00 (by decide)

theorem MatchesRow.reserved07 (x : Word) : MatchesRow.Statement (.reserved07 x) :=
  fun _ => command_matches 0x07#8 x 0xFF 0x07 (by decide)

theorem MatchesRow.reserved08 (l : BitVec 3) (x : Word) : MatchesRow.Statement (.reserved08 l x) :=
  fun _ => command_matches (0b00001#5 ++ l) x 0xF8 0x08 (by clear * - l; revert l; decide)

theorem MatchesRow.reserved10 (l : BitVec 4) (x : Word) : MatchesRow.Statement (.reserved10 l x) :=
  fun _ => command_matches (0b0001#4 ++ l) x 0xF0 0x10 (by clear * - l; revert l; decide)

theorem MatchesRow.reserved20 (l : BitVec 5) (x : Word) : MatchesRow.Statement (.reserved20 l x) :=
  fun _ => command_matches (0b001#3 ++ l) x 0xE0 0x20 (by clear * - l; revert l; decide)

theorem MatchesRow.reserved40 (l : BitVec 6) (x : Word) : MatchesRow.Statement (.reserved40 l x) :=
  fun _ => command_matches (0b01#2 ++ l) x 0xC0 0x40 (by clear * - l; revert l; decide)

theorem MatchesRow.reserved80 (l : BitVec 7) (x : Word) : MatchesRow.Statement (.reserved80 l x) :=
  fun _ => command_matches (0b1#1 ++ l) x 0x80 0x80 (by clear * - l; revert l; decide)

/-- A byte that carries a 7-bit value has bit 7 clear. -/
theorem databyte_and (n : BitVec 7) : (0#1 ++ n : Byte).toNat &&& 0x80 = 0 := by revert n; decide

theorem MatchesRow.noteOff (n : Note) (v : Byte) (c : BitVec 4) (o : Word) :
    MatchesRow.Statement (.noteOff n v c o) := by
  intro _
  have hc : ((0x8#4 ++ c : Byte).toNat &&& 0xF0) = 0x80 := by clear * - c; revert c; decide
  exact event_matches 0x03#8 v (0#1 ++ n) (0x8#4 ++ c) o 0xFF 0 0x80 0xF0 0x03000080
    (by decide) (by decide) (by decide) (by rw [databyte_and, hc]; simp)

theorem MatchesRow.noteOn (n : Note) (v : Byte) (c : BitVec 4) (o : Word) :
    MatchesRow.Statement (.noteOn n v c o) := by
  intro _
  have hc : ((0x9#4 ++ c : Byte).toNat &&& 0xF0) = 0x90 := by clear * - c; revert c; decide
  exact event_matches 0x03#8 v (0#1 ++ n) (0x9#4 ++ c) o 0xFF 0 0x80 0xF0 0x03000090
    (by decide) (by decide) (by decide) (by rw [databyte_and, hc]; simp)

theorem MatchesRow.pitchBend (v : BendValue) (c : BitVec 4) (o : Word) :
    MatchesRow.Statement (.pitchBend v c o) := by
  intro _
  have hc : ((0xE#4 ++ c : Byte).toNat &&& 0xF0) = 0xE0 := by clear * - c; revert c; decide
  exact event_matches 0x03#8 (0#1 ++ v.extractLsb' 7 7) (0#1 ++ v.extractLsb' 0 7) (0xE#4 ++ c) o
    0xFF 0x80 0x80 0xF0 0x030000E0 (by decide) (by decide) (by decide)
    (by rw [databyte_and, databyte_and, hc]; simp)

theorem MatchesRow.ignored (a b c d : Byte) (o : Word) : MatchesRow.Statement (.ignored a b c d o) :=
  fun _ => ⟨(eventRecord a b c d o).isLt, Nat.and_zero _⟩

theorem MatchesRow.reset : MatchesRow.Statement .reset :=
  fun _ => by decide

end Sys2Proof.Laws
end

