-- ==== Sys2Proof/Laws/Step.lean ====
section
/-! SUPPORT. What a step can do, said once: one inversion lemma per sequencing operation, and what each meaning can answer. -/

namespace Sys2Proof.Machine

/-! ### APPLY (R60, R175) -/

/-- APPLY of a non-empty FIFO: the head is popped and its effect taken. -/
theorem applyHead_cons (s : State) (f : Fifo) (w : Word) (ws : List Word) (h : s.pending f = w :: ws) :
    s.applyHead f = applyWrite f w (s.setPending f ws) := by
  unfold State.applyHead; rw [h]

theorem applyHead_nil (s : State) (f : Fifo) (h : s.pending f = []) : s.applyHead f = s := by
  unfold State.applyHead; rw [h]

/-- What APPLY can do, over all FIFOs and contents. -/
theorem applyHead_cases (s : State) (f : Fifo) :
    (s.pending f = [] ∧ s.applyHead f = s) ∨
      ∃ w ws, s.pending f = w :: ws ∧
        ((f = .potA ∧ s.applyHead f = { s with pendA := ws, pairA := potOperand w }) ∨
          (f = .potB ∧ s.applyHead f = { s with pendB := ws, pairB := potOperand w }) ∨
          (f = .gain ∧ s.applyHead f = { s with pendGain := ws, gain := gainOperand w }) ∨
          (f = .gesture ∧ s.applyHead f = { s with pendGesture := ws, gestureActive := gestureOperand w })) := by
  cases h : s.pending f with
  | nil => exact .inl ⟨rfl, applyHead_nil s f h⟩
  | cons w ws =>
    refine .inr ⟨w, ws, rfl, ?_⟩
    rw [applyHead_cons s f w ws h]
    cases f
    · exact .inl ⟨rfl, rfl⟩
    · exact .inr (.inl ⟨rfl, rfl⟩)
    · exact .inr (.inr (.inl ⟨rfl, rfl⟩))
    · exact .inr (.inr (.inr ⟨rfl, rfl⟩))

/-- APPLY shortens its FIFO by one and leaves the others. -/
theorem applyHead_pending (s : State) (f g : Fifo) :
    (s.applyHead f).pending g = if g = f then (s.pending f).tail else s.pending g := by
  cases h : s.pending f with
  | nil =>
    rw [applyHead_nil s f h]
    split
    · rename_i hg; rw [hg, h]; rfl
    · rfl
  | cons w ws =>
    rw [applyHead_cons s f w ws h]
    cases f <;> cases g <;>
      simp [applyWrite, applyPotA, applyPotB, applyGain, applyGesture, State.setPending, State.pending]

/-! ### Commands and START -/

/-- What START can answer (R152). -/
theorem startBlock_cases (l : Word) (s : State) :
    ((s.eventPort.headD []).length < 2 ^ 32 ∧
        startBlock l s = .next (s.beginBlock l (s.eventPort.headD []))) ∨
      (2 ^ 32 ≤ (s.eventPort.headD []).length ∧ startBlock l s = .refused .tooManyEvents) := by
  unfold startBlock
  by_cases h : (s.eventPort.headD []).length < 2 ^ 32
  · exact .inl ⟨h, by simp only [h, if_true]⟩
  · exact .inr ⟨by omega, by simp only [h, if_false]⟩

/-- The three things a SET_SAMPLE_RATE between blocks can do (R140). -/
theorem setSampleRateEffect_cases (r : Word) (s : State) :
    (r = 0#32 ∧ setSampleRateEffect r s = s) ∨
      (r ≠ 0#32 ∧ s.sampleRate = 0#32 ∧ setSampleRateEffect r s = { s with sampleRate := r }) ∨
      (r ≠ 0#32 ∧ s.sampleRate ≠ 0#32 ∧
        setSampleRateEffect r s =
          { s with
            sampleRate := r
            astableRun := rescale s.astableRun r s.sampleRate
            monostableRun := rescale s.monostableRun r s.sampleRate }) := by
  unfold setSampleRateEffect
  by_cases h : r = 0#32
  · exact .inl ⟨h, if_pos h⟩
  · by_cases h0 : s.sampleRate = 0#32
    · exact .inr (.inl ⟨h, h0, by rw [if_neg h, if_pos h0]; rfl⟩)
    · exact .inr (.inr ⟨h, h0, by rw [if_neg h, if_neg h0]; rfl⟩)

/-! ### The effects as single updates -/

/-- RENDER_SAMPLE and its OutWrite as one update: cite this and never unfold `renderSample`, whose fields
hold large arithmetic (R150). -/
theorem renderSample_eq (s : State) :
    renderSample s =
      { s with
        astableRun := saturate (wrappedAstable s + 1)
        monostableRun := saturate (retriggeredMonostable s + 1)
        outputLevel := sampleLevel s
        out := s.out ++ [renderedSample s]
        sampleIdx := s.sampleIdx + 1#32 } := by
  unfold renderSample renderAdvance State.outWrite State.advanceSample State.setCounters State.setLevel
  rfl

/-- NOTE_ON as one update (R121). -/
theorem noteOnEffect_eq (table : Config.NoteTable) (n : Note) (s : State) :
    noteOnEffect table n s =
      { s with
        notes := s.notes.set n
        pairA := BitVec.ofNat 32 (tableRead table n).a.val
        pairB := BitVec.ofNat 32 (tableRead table n).b.val } := by
  unfold noteOnEffect State.setPairFromEntry State.setPair State.setNotes
  rfl

/-- NOTE_OFF as one update (R122). -/
theorem noteOffEffect_cases (table : Config.NoteTable) (n : Note) (s : State) :
    ((s.notes.clear n).isEmpty = true ∧ noteOffEffect table n s = { s with notes := s.notes.clear n }) ∨
      ((s.notes.clear n).isEmpty = false ∧
        noteOffEffect table n s =
          { s with
            notes := s.notes.clear n
            pairA := BitVec.ofNat 32 (governingEntry table (s.notes.clear n)).a.val
            pairB := BitVec.ofNat 32 (governingEntry table (s.notes.clear n)).b.val }) := by
  unfold noteOffEffect State.setPairFromEntry State.setPair State.setNotes
  cases h : (s.notes.clear n).isEmpty
  · exact .inr ⟨rfl, by simp [h]⟩
  · exact .inl ⟨rfl, by simp [h]⟩

/-- PITCH_BEND as one update (R123). -/
theorem pitchBendEffect_cases (table : Config.NoteTable) (v : BendValue) (s : State) :
    (s.notes.isEmpty = true ∧ pitchBendEffect table v s = s) ∨
      (s.notes.isEmpty = false ∧
        pitchBendEffect table v s =
          { s with
            pairB := storeInt (bentB (governingEntry table s.notes).b.val (bendOperand v)) }) := by
  unfold pitchBendEffect State.setPairB
  cases h : s.notes.isEmpty
  · exact .inr ⟨rfl, by simp⟩
  · exact .inl ⟨rfl, by simp⟩

/-! ### What each operation can answer -/

/-- A next state of any operation is one of these: an ISSUE, no effect, a held command, the effect of a
rate change or a START between blocks, one of the three note operations, or RESET. -/
theorem exec_next_cases (i : Instr) (s t : State) (h : exec i s = .next t) :
    (∃ f w, t = s.issue f w) ∨ t = s ∨ (∃ c, s.mustHold = true ∧ t = s.hold c) ∨
      (∃ r, i = .setSampleRate r ∧ s.mustHold = false ∧ t = setSampleRateEffect r s) ∨
      (∃ l, i = .renderBlock l ∧ s.mustHold = false ∧ (s.eventPort.headD []).length < 2 ^ 32 ∧
        t = s.beginBlock l (s.eventPort.headD [])) ∨
      (∃ n v c o, i = .noteOn n v c o ∧ t = noteOnEffect Config.noteTable n s) ∨
      (∃ n v c o, i = .noteOff n v c o ∧ t = noteOffEffect Config.noteTable n s) ∨
      (∃ v c o, i = .pitchBend v c o ∧ t = pitchBendEffect Config.noteTable v s) ∨
      (i = .reset ∧ s.busy = false ∧ t = s.resetEngine) := by
  cases i with
  | setPotA x => cases h; exact .inl ⟨_, _, rfl⟩
  | setPotB x => cases h; exact .inl ⟨_, _, rfl⟩
  | setGain x => cases h; exact .inl ⟨_, _, rfl⟩
  | setGesture x => cases h; exact .inl ⟨_, _, rfl⟩
  | setSampleRate r =>
    simp only [exec, execSetSampleRate] at h
    split at h <;> cases h
    · rename_i hm; exact .inr (.inr (.inl ⟨_, hm, rfl⟩))
    · rename_i hm; exact .inr (.inr (.inr (.inl ⟨r, rfl, by simpa using hm, rfl⟩)))
  | renderBlock l =>
    simp only [exec, execRenderBlock] at h
    split at h
    · rename_i hm; cases h; exact .inr (.inr (.inl ⟨_, hm, rfl⟩))
    · rename_i hm
      rcases startBlock_cases l s with ⟨hl, he⟩ | ⟨_, he⟩ <;> rw [he] at h <;> cases h
      exact .inr (.inr (.inr (.inr (.inl ⟨l, rfl, by simpa using hm, hl, rfl⟩))))
  | reserved00 x => cases h; exact .inr (.inl rfl)
  | reserved07 x => cases h; exact .inr (.inl rfl)
  | reserved08 l x => cases h; exact .inr (.inl rfl)
  | reserved10 l x => cases h; exact .inr (.inl rfl)
  | reserved20 l x => cases h; exact .inr (.inl rfl)
  | reserved40 l x => cases h; exact .inr (.inl rfl)
  | reserved80 l x => cases h; exact .inr (.inl rfl)
  | noteOff n v c o => cases h; exact .inr (.inr (.inr (.inr (.inr (.inr (.inl ⟨n, v, c, o, rfl, rfl⟩))))))
  | noteOn n v c o => cases h; exact .inr (.inr (.inr (.inr (.inr (.inl ⟨n, v, c, o, rfl, rfl⟩)))))
  | pitchBend v c o => cases h; exact .inr (.inr (.inr (.inr (.inr (.inr (.inr (.inl ⟨v, c, o, rfl, rfl⟩)))))))
  | ignored a b c d e => cases h; exact .inr (.inl rfl)
  | reset =>
    simp only [exec, execReset] at h
    split at h <;> cases h
    rename_i hb
    exact .inr (.inr (.inr (.inr (.inr (.inr (.inr (.inr ⟨rfl, by simpa using hb, rfl⟩)))))))

/-- An event record always decodes to one of the four event operations (R76), and each completes. -/
theorem exec_decodeEvent (r : EventRecord) (s : State) :
    (∃ n v c o, decodeEvent r = .noteOn n v c o ∧
        exec (decodeEvent r) s = .next (noteOnEffect Config.noteTable n s)) ∨
      (∃ n v c o, decodeEvent r = .noteOff n v c o ∧
        exec (decodeEvent r) s = .next (noteOffEffect Config.noteTable n s)) ∨
      (∃ v c o, decodeEvent r = .pitchBend v c o ∧
        exec (decodeEvent r) s = .next (pitchBendEffect Config.noteTable v s)) ∨
      (∃ a b c d o, decodeEvent r = .ignored a b c d o ∧ exec (decodeEvent r) s = .next s) := by
  unfold decodeEvent
  dsimp only
  repeat' split
  · exact .inr (.inl ⟨_, _, _, _, rfl, rfl⟩)
  · exact .inl ⟨_, _, _, _, rfl, rfl⟩
  · exact .inr (.inr (.inl ⟨_, _, _, rfl, rfl⟩))
  · exact .inr (.inr (.inr ⟨_, _, _, _, _, rfl, rfl⟩))

/-! ### The sequencer -/

theorem step_eq (s : State) : step s = runMove s.nextMove s.dropMove := rfl

/-- A chosen move is an enabled one. -/
theorem nextMove_enabled (s : State) (m : Move) (h : s.nextMove = some m) : s.enabled m = true := by
  have he : ∀ m, s.eagerMove = some m → s.enabled m = true := by
    intro m hm
    unfold State.eagerMove at hm
    repeat' split at hm
    all_goals first | (cases hm; assumption) | exact absurd hm (by simp)
  unfold State.nextMove at h
  split at h
  · exact he m h
  · split at h
    · cases h; assumption
    · exact he m h

/-- The scheduled move is taken whenever it is enabled (R59, R60). -/
theorem nextMove_scheduled (s : State) (m : Move) (ms : List Move) (h : s.schedule = m :: ms)
    (he : s.enabled m = true) : s.nextMove = some m := by
  unfold State.nextMove; rw [h]; simp [he]

/-- What taking an arrival can answer (R63, R85). -/
theorem takeArrival_cases (s : State) :
    (s.port = [] ∧ takeArrival s = .next s) ∨
      ∃ a rest, s.port = a :: rest ∧
        ((∃ i, decodeArrival a = .ok i ∧ takeArrival s = exec i s.dropArrival) ∨
          (∃ e, decodeArrival a = .error e ∧ takeArrival s = .refused (.wrongSizeWord (arrivalBytes a)))) := by
  unfold takeArrival
  cases hp : s.port with
  | nil => exact .inl ⟨rfl, rfl⟩
  | cons a rest =>
    refine .inr ⟨a, rest, rfl, ?_⟩
    cases hd : decodeArrival a with
    | ok i => exact .inl ⟨i, rfl, by simp [hd]⟩
    | error e => exact .inr ⟨e, rfl, by simp [hd]⟩

/-- What the next step of a block is (R125). -/
theorem blockStep_cases (s : State) :
    (s.sampleIdx < s.blkLen ∧ (∃ r, s.dueEvent = some r ∧ blockStep s = exec (decodeEvent r) s.advanceEvent)) ∨
      (s.sampleIdx < s.blkLen ∧ s.dueEvent = none ∧ blockStep s = .next (renderSample s)) ∨
      (¬ s.sampleIdx < s.blkLen ∧ blockStep s = .next s.endBlock) := by
  unfold blockStep
  by_cases h : s.sampleIdx < s.blkLen
  · cases hd : s.dueEvent with
    | some r => exact .inl ⟨h, r, rfl, by simp [h]⟩
    | none => exact .inr (.inl ⟨h, rfl, by simp [h]⟩)
  · exact .inr (.inr ⟨h, by simp [h]⟩)

/-- A due event is record `k` with `k < E` and `offset <= i` (R125). -/
theorem dueEvent_eq_some (s : State) (r : EventRecord) :
    s.dueEvent = some r ↔ s.evbuf[s.eventIdx.toNat]? = some r ∧ recordOffset r ≤ s.sampleIdx := by
  unfold State.dueEvent State.eventRead
  cases h : s.evbuf[s.eventIdx.toNat]? with
  | none => simp
  | some q =>
    by_cases hq : recordOffset q ≤ s.sampleIdx
    · simp only [hq, if_true, Option.some.injEq]
      exact ⟨fun h => h ▸ ⟨rfl, hq⟩, fun h => h.1⟩
    · simp only [hq, if_false, Option.some.injEq, reduceCtorEq, false_iff, not_and]
      rintro rfl; exact hq

/-- What releasing a held command can answer (R61). -/
theorem releaseHeld_cases (s : State) :
    (s.held = [] ∧ releaseHeld s = .next s) ∨
      (∃ r rest, s.held = .setSampleRate r :: rest ∧
        releaseHeld s = .next (setSampleRateEffect r s.dropHeld)) ∨
      (∃ l rest, s.held = .renderBlock l :: rest ∧ releaseHeld s = startBlock l s.dropHeld) := by
  unfold releaseHeld
  rcases hh : s.held with _ | ⟨c, rest⟩
  · exact .inl ⟨rfl, rfl⟩
  · cases c with
    | setSampleRate r => exact .inr (.inl ⟨r, rest, rfl, rfl⟩)
    | renderBlock l => exact .inr (.inr ⟨l, rest, rfl, rfl⟩)

/-- What one atomic step can be (R59): waiting, APPLY, taking an arrival, the next step of the block, or
the release of a held command. Each runs on the state whose schedule entry is used up. -/
theorem step_cases (s : State) :
    (s.nextMove = none ∧ step s = .next s.dropMove) ∨
      (∃ f, s.nextMove = some (.apply f) ∧ step s = .next (s.dropMove.applyHead f)) ∨
      (s.nextMove = some .take ∧ step s = takeArrival s.dropMove) ∨
      (s.nextMove = some .engine ∧ s.busy = true ∧ step s = blockStep s.dropMove) ∨
      (s.nextMove = some .engine ∧ s.busy = false ∧ step s = releaseHeld s.dropMove) := by
  rw [step_eq]
  cases h : s.nextMove with
  | none => exact .inl ⟨rfl, rfl⟩
  | some m =>
    cases m with
    | engine =>
      cases hb : s.busy
      · exact .inr (.inr (.inr (.inr ⟨rfl, rfl, by simp [runMove, engineStep, hb]⟩)))
      · exact .inr (.inr (.inr (.inl ⟨rfl, rfl, by simp [runMove, engineStep, hb]⟩)))
    | take => exact .inr (.inr (.inl ⟨rfl, rfl⟩))
    | apply f => exact .inr (.inl ⟨f, rfl, rfl⟩)

/-! ### Runs -/

theorem runSteps_zero (s : State) : Safety.runSteps 0 s = .next s := rfl

theorem runSteps_succ_next (n : Nat) (s t : State) (h : step s = .next t) :
    Safety.runSteps (n + 1) s = Safety.runSteps n t := by
  have h' : Sys2Proof.core.step s = .next t := h
  have e := Host.Core.run.eq_2 Sys2Proof.core s n
  rw [h'] at e
  exact e

theorem runSteps_succ_refused (n : Nat) (s : State) (r : Refusal) (h : step s = .refused r) :
    Safety.runSteps (n + 1) s = .refused r := by
  have h' : Sys2Proof.core.step s = .refused r := h
  have e := Host.Core.run.eq_2 Sys2Proof.core s n
  rw [h'] at e
  exact e

end Sys2Proof.Machine
end

