-- ==== Sys2Proof/Tests/Slice0.lean ====
section
/-! SUPPORT. The model's own tests: words written out from spec/30_encoding.md and 95_test_vectors.md, ill-formed terms that the check refuses, one-step tests with the results of 95_test_vectors.md, and for every obligation with hypotheses a concrete state that meets them all. -/

namespace Sys2Proof.Tests

open Sys2Proof Sys2Proof.Machine Sys2Proof.Safety

/-! ### The fixture of 95_test_vectors.md section 0 -/

/-- After RESET, with DEFAULT_A, DEFAULT_B and DEFAULT_GAIN as the fixture sets them. -/
def idle : State :=
  { State.reset with pairA := 100000#32, pairB := 80000#32, gain := 0x3F800000#32 }

/-- The fixture at 48000. -/
def idle48 : State := { idle with sampleRate := 48000#32 }

/-- A block of three samples in progress at 48000, with the gesture on. -/
def block : State := { idle48 with busy := true, blkLen := 3#32, gestureActive := true }

/-- An entry of the fixture's table: `a = 40000 + 1000 n`, `b = 20000 + 1000 n`. -/
def entry (n : Fin 128) : Config.NoteEntry :=
  ⟨⟨40000 + 1000 * n.val, by have := n.isLt; unfold Config.potMax; omega⟩,
    ⟨20000 + 1000 * n.val, by have := n.isLt; unfold Config.potMax; omega⟩, ⟨0⟩⟩

/-- The fixture's table. -/
def table : Config.NoteTable := Vector.ofFn entry

/-- A set of notes. -/
def notes (l : List Note) : NoteSet := l.foldl NoteSet.set NoteSet.empty

/-- The answer is a next state in which `p` holds. -/
def onNext (o : Host.Outcome State Fault Refusal) (p : State → Bool) : Bool :=
  match o with
  | .next t => p t
  | .fault _ => false
  | .refused _ => false

/-- The answer is this refusal. -/
def refuses (o : Host.Outcome State Fault Refusal) (r : Refusal) : Bool :=
  match o with
  | .next _ => false
  | .fault _ => false
  | .refused q => decide (q = r)

/-- The operation read, if there is one. -/
def decoded (o : Except DecodeError Instr) : Option Instr :=
  match o with
  | .ok i => some i
  | .error _ => none

/-- The error named, if there is one. -/
def decodeErrorOf (o : Except DecodeError Instr) : Option DecodeError :=
  match o with
  | .ok _ => none
  | .error e => some e

/-! ### Decoding: words from R71, R74 and the vectors of sections 2.3 and 2.8 -/

/-- op 00000001, operand 504 (V-C1). -/
theorem test_decode_setPotA : decodeTableWord 40 0x01000001F8 = some (.setPotA 504#32) := by decide

/-- op 00000010, operand 470001 (V-C5). -/
theorem test_decode_setPotB : decodeTableWord 40 0x0200072BF1 = some (.setPotB 470001#32) := by decide

/-- op 00000011, 0.5 (P1). -/
theorem test_decode_setGain : decodeTableWord 40 0x033F000000 = some (.setGain 0x3F000000#32) := by decide

/-- op 00000100 (V-C7). -/
theorem test_decode_setGesture : decodeTableWord 40 0x0400000003 = some (.setGesture 3#32) := by decide

/-- op 00000101, 48000 (P1). -/
theorem test_decode_setSampleRate :
    decodeTableWord 40 0x050000BB80 = some (.setSampleRate 48000#32) := by decide

/-- op 00000110, 600 (P1). -/
theorem test_decode_renderBlock : decodeTableWord 40 0x0600000258 = some (.renderBlock 600#32) := by decide

/-- The seven reserved rows at their lowest and highest opcodes (R72, R79; V-C8). -/
theorem test_decode_reserved :
    decodeTableWord 40 0x0000000000 = some (.reserved00 0#32) ∧
      decodeTableWord 40 0x0700000001 = some (.reserved07 1#32) ∧
      decodeTableWord 40 0x0800000000 = some (.reserved08 0#3 0#32) ∧
      decodeTableWord 40 0x0F00000000 = some (.reserved08 7#3 0#32) ∧
      decodeTableWord 40 0x1000000000 = some (.reserved10 0#4 0#32) ∧
      decodeTableWord 40 0x1F00000000 = some (.reserved10 15#4 0#32) ∧
      decodeTableWord 40 0x2000000000 = some (.reserved20 0#5 0#32) ∧
      decodeTableWord 40 0x3F00000000 = some (.reserved20 31#5 0#32) ∧
      decodeTableWord 40 0x4000000000 = some (.reserved40 0#6 0#32) ∧
      decodeTableWord 40 0x7F00000000 = some (.reserved40 63#6 0#32) ∧
      decodeTableWord 40 0x8000000000 = some (.reserved80 0#7 0#32) ∧
      decodeTableWord 40 0xFF12345678 = some (.reserved80 127#7 0x12345678#32) := by decide

/-- nbytes 3, data2 0x64, data1 60, status 1001 0000, offset 0 (V-E1); channel 15, velocity 0 (V-E5). -/
theorem test_decode_noteOn :
    decodeTableWord 64 0x03643C9000000000 = some (.noteOn 60#7 0x64#8 0#4 0#32) ∧
      decodeTableWord 64 0x03003D9F00000000 = some (.noteOn 61#7 0#8 15#4 0#32) := by decide

/-- V-E2: status 1000 0000, offset 3. -/
theorem test_decode_noteOff :
    decodeTableWord 64 0x03003C8000000003 = some (.noteOff 60#7 0#8 0#4 3#32) := by decide

/-- V-E3, V-E4: v = 0x3000 and v = 0x3FFF. -/
theorem test_decode_pitchBend :
    decodeTableWord 64 0x036000E000000001 = some (.pitchBend 0x3000#14 0#4 1#32) ∧
      decodeTableWord 64 0x037F7FE000000000 = some (.pitchBend 0x3FFF#14 0#4 0#32) := by decide

/-- V-E6 to V-E11: each reason to be IGNORED. -/
theorem test_decode_ignored :
    decodeTableWord 64 0x02643C9000000000 = some (.ignored 2#8 0x64#8 0x3C#8 0x90#8 0#32) ∧
      decodeTableWord 64 0x036407B000000000 = some (.ignored 3#8 0x64#8 7#8 0xB0#8 0#32) ∧
      decodeTableWord 64 0x0301809000000000 = some (.ignored 3#8 1#8 0x80#8 0x90#8 0#32) ∧
      decodeTableWord 64 0x038000E000000000 = some (.ignored 3#8 0x80#8 0#8 0xE0#8 0#32) ∧
      decodeTableWord 64 0x010000F800000000 = some (.ignored 1#8 0#8 0#8 0xF8#8 0#32) ∧
      decodeTableWord 64 0x0300003C00000000 = some (.ignored 3#8 0#8 0#8 0x3C#8 0#32) := by decide

/-- The reset input: asserted, not asserted, not one bit; and a row of a width no format has (R82). -/
theorem test_decode_reset :
    decodeTableWord 1 1 = some .reset ∧ decodeTableWord 8 1 = some .reset ∧ decodeTableWord 8 0 = none ∧
      decodeTableWord 8 2 = none ∧ decodeTableWord 16 1 = none := by decide

/-- Serialised words of the wrong size are refused by name (R55). -/
theorem test_decode_wrong_size :
    decodeErrorOf (decodeBytes .cmd40 [1#8, 2#8, 3#8, 4#8]) = some (.wrongSize 4) ∧
      decodeErrorOf (decodeBytes .evt64 (bytesOfNat 9 0)) = some (.wrongSize 9) ∧
      decodeErrorOf (decodeBytes .resetPin [2#8]) = some .resetNotOneBit := by decide

/-- The encoder writes the words of the vectors, least significant byte first (R54). -/
theorem test_encode :
    encode (.setPotA 504#32) = [0xF8#8, 0x01#8, 0#8, 0#8, 0x01#8] ∧
      encodeNat (.noteOn 60#7 0x64#8 0#4 0#32) = 0x03643C9000000000 ∧
      encodeNat (.pitchBend 0x3000#14 0#4 1#32) = 0x036000E000000001 ∧
      encodeNat (.reserved80 127#7 0x12345678#32) = 0xFF12345678 := by decide

/-! ### WellFormed: one ill-formed term for each check, refused -/

theorem test_illFormed_noteOff : (Instr.ignored 3#8 0#8 0x3C#8 0x80#8 0#32).wellFormed = false := by decide

theorem test_illFormed_noteOn : (Instr.ignored 3#8 1#8 0x7F#8 0x9F#8 0#32).wellFormed = false := by decide

theorem test_illFormed_pitchBend : (Instr.ignored 3#8 0x7F#8 0x7F#8 0xE0#8 0#32).wellFormed = false := by
  decide

/-- The premise of DecodeInvertsEncode, at an IGNORED record one bit away from each row above it. -/
theorem test_wellFormed :
    (Instr.ignored 3#8 0#8 0x80#8 0x80#8 0#32).wellFormed = true ∧
      (Instr.ignored 2#8 0#8 0x3C#8 0x90#8 0#32).wellFormed = true ∧
      (Instr.ignored 3#8 0x80#8 0#8 0xE0#8 0#32).wellFormed = true ∧
      (Instr.noteOn 127#7 0xFF#8 15#4 0xFFFFFFFF#32).wellFormed = true := by decide

/-- The premise of EncodeInvertsDecode, in each format. -/
theorem test_decodes_in_each_format :
    decoded (decodeBytes .cmd40 (bytesOfNat 5 0x0600000258)) = some (.renderBlock 600#32) ∧
      decoded (decodeBytes .evt64 (bytesOfNat 8 0x037F7FE0FFFFFFFF)) =
        some (.pitchBend 0x3FFF#14 0#4 0xFFFFFFFF#32) ∧
      decoded (decodeBytes .resetPin [1#8]) = some .reset := by decide

/-- The lengths that DecodersRefuseOnlyWrongSizes tells apart. -/
theorem test_lengths :
    (bytesOfNat 5 0).length = 5 ∧ (bytesOfNat 4 0).length ≠ 5 ∧ (bytesOfNat 8 0).length = 8 ∧
      (bytesOfNat 0 0).length ≠ 8 := by decide

/-- Every row of EventDecodeByPriority is taken by some record, at the edge 127 / 128 of a data byte. -/
theorem test_event_rows :
    decodeEvent (3#8 ++ 0#8 ++ 127#8 ++ 0x80#8 ++ 0#32) = .noteOff 127#7 0#8 0#4 0#32 ∧
      decodeEvent (3#8 ++ 255#8 ++ 127#8 ++ 0x9F#8 ++ 0#32) = .noteOn 127#7 255#8 15#4 0#32 ∧
      decodeEvent (3#8 ++ 127#8 ++ 127#8 ++ 0xE1#8 ++ 9#32) = .pitchBend 0x3FFF#14 1#4 9#32 ∧
      decodeEvent (3#8 ++ 128#8 ++ 127#8 ++ 0xE1#8 ++ 9#32) = .ignored 3#8 128#8 127#8 0xE1#8 9#32 ∧
      decodeEvent (3#8 ++ 0#8 ++ 128#8 ++ 0x80#8 ++ 0#32) = .ignored 3#8 0#8 128#8 0x80#8 0#32 := by decide

/-- The last byte of a serialised word, `j = n - 1` (SerialisedLittleEndian). -/
theorem test_serialised : (bytesOfNat 5 0x01000001F8)[4]? = some 1#8 ∧ 4 < 5 := by decide

/-! ### Control writes (section 2.8) -/

/-- ISSUE appends the raw operand, during a block too (R175). -/
theorem test_setPotA_issue :
    onNext (exec (.setPotA 0xFFFFFFFB#32) { block with pendA := [7#32] }) (fun t =>
      t == { block with pendA := [7#32, 0xFFFFFFFB#32] }) = true := by decide

/-- V-C1 to V-C4, and both edges of the clamp. -/
theorem test_potOperand :
    potOperand 504#32 = 504#32 ∧ potOperand 0xFFFFFFFB#32 = 0#32 ∧ potOperand 0x80000000#32 = 0#32 ∧
      potOperand 0x7FFFFFFF#32 = 470000#32 ∧ potOperand 470001#32 = 470000#32 ∧
      potOperand 470000#32 = 470000#32 ∧ potOperand 0xFFFFFFFF#32 = 0#32 ∧ potOperand 0#32 = 0#32 := by
  decide

/-- APPLY by the schedule, in the middle of a block: the premises of SetPotAIssuedThenApplied. -/
theorem test_setPotA_apply :
    onNext (step { block with schedule := [.apply .potA], pendA := [470001#32, 1#32] }) (fun t =>
      t == { block with pendA := [1#32], pairA := 470000#32 }) = true := by decide

theorem test_setPotB_issue :
    onNext (exec (.setPotB 470001#32) idle) (fun t => t == { idle with pendB := [470001#32] }) = true := by
  decide

/-- V-C5, by the eager schedule; and the premises of SetPotBIssuedThenApplied. -/
theorem test_setPotB_apply :
    onNext (step { idle with pendB := [470001#32] }) (fun t => t == { idle with pairB := 470000#32 }) = true ∧
      onNext (step { idle with schedule := [.apply .potB], pendB := [0xFFFFFFFF#32] }) (fun t =>
        t == { idle with pairB := 0#32 }) = true := by decide

/-- The table of section 2.8 for R172. -/
theorem test_gainOperand :
    gainOperand 0x7FC00000#32 = 0#32 ∧ gainOperand 0x7F800001#32 = 0#32 ∧ gainOperand 0xFFC00000#32 = 0#32 ∧
      gainOperand 0x80000000#32 = 0#32 ∧ gainOperand 0xBF800000#32 = 0#32 ∧
      gainOperand 0xFF800000#32 = 0#32 ∧ gainOperand 0#32 = 0#32 ∧ gainOperand 1#32 = 1#32 ∧
      gainOperand 0x007FFFFF#32 = 0x007FFFFF#32 ∧ gainOperand 0x3F000000#32 = 0x3F000000#32 ∧
      gainOperand 0x3F7FFFFF#32 = 0x3F7FFFFF#32 ∧ gainOperand 0x3F800000#32 = 0x3F800000#32 ∧
      gainOperand 0x3F800001#32 = 0x3F800000#32 ∧ gainOperand 0x40000000#32 = 0x3F800000#32 ∧
      gainOperand 0x7F800000#32 = 0x3F800000#32 := by decide

/-- The premises of SetGainIssuedThenApplied. -/
theorem test_setGain_apply :
    onNext (step { block with schedule := [.apply .gain, .take], pendGain := [0x3F000000#32] }) (fun t =>
      t == { block with schedule := [.take], gain := 0x3F000000#32 }) = true := by decide

/-- V-C7, and the premises of SetGestureIssuedThenApplied. -/
theorem test_setGesture_apply :
    onNext (step { idle with schedule := [.apply .gesture], pendGesture := [3#32, 2#32] }) (fun t =>
        t == { idle with pendGesture := [2#32], gestureActive := true }) = true ∧
      onNext (step { block with schedule := [.apply .gesture], pendGesture := [2#32] }) (fun t =>
        t.gestureActive == false) = true := by decide

/-- The premises of the APPLY clauses of the four control writes: by the schedule during a block, and by the
eager order. -/
theorem test_apply_premises :
    ({ block with schedule := [.apply .potA], pendA := [1#32] } : State).nextMove = some (.apply .potA) ∧
      ({ block with schedule := [.apply .potB], pendB := [1#32] } : State).nextMove = some (.apply .potB) ∧
      ({ block with pendGain := [1#32] } : State).nextMove = some (.apply .gain) ∧
      ({ idle with pendGesture := [1#32] } : State).nextMove = some (.apply .gesture) := by decide

/-- V-C8: reserved commands change nothing, at the edges of both opcode ranges. -/
theorem test_reserved :
    onNext (exec (decodeCommand 0xFF12345678#40) block) (fun t => t == block) = true ∧
      onNext (exec (decodeCommand 0x0000000000#40) block) (fun t => t == block) = true ∧
      onNext (exec (decodeCommand 0x0700000000#40) block) (fun t => t == block) = true := by decide

/-- V-C9: the four torn pairs, from the premises of EveryTornPairIsReachable. -/
theorem test_torn_pair :
    onNext (runSteps 0 { block with pendA := [0#32], pendB := [0#32] }) (fun t =>
        (t.pairA, t.pairB) == (100000#32, 80000#32)) = true ∧
      onNext (runSteps 1 { block with pendA := [0#32], pendB := [0#32], schedule := [.apply .potA] }) (fun t =>
        (t.pairA, t.pairB) == (0#32, 80000#32)) = true ∧
      onNext (runSteps 1 { block with pendA := [0#32], pendB := [0#32], schedule := [.apply .potB] }) (fun t =>
        (t.pairA, t.pairB) == (100000#32, 0#32)) = true ∧
      onNext (runSteps 2 { block with pendA := [0#32], pendB := [0#32] }) (fun t =>
        (t.pairA, t.pairB) == (0#32, 0#32)) = true := by decide

/-! ### The step and the fetch -/

/-- The premises of the three clauses of StepRunsTheDecodedInstruction. -/
theorem test_step_premises :
    ({ idle with port := [.command (encode (.setPotA 5#32))] } : State).nextMove = some .take ∧
      ({ idle with port := [.reset] } : State).nextMove = some .take ∧
      ({ block with evbuf := [0x03643C9000000000#64] } : State).nextMove = some .engine ∧
      ({ block with evbuf := [0x03643C9000000000#64] } : State).dueEvent = some 0x03643C9000000000#64 := by
  decide

/-- A command placed after RESET is run by the very next step; so is RESET (PlacedInstructionRunsNext). -/
theorem test_withFetchWord_command :
    onNext (step (idle.withFetchWord 40 0x050000BB80)) (fun t => t == idle48) = true ∧
      onNext (step (idle48.withFetchWord 8 1)) (fun t => t.sampleRate == 0#32 && t.port.isEmpty) = true := by
  decide

/-- An event placed with offset 3 is dispatched at sample 3; the last offset that can be is 2^32 - 2. -/
theorem test_withFetchWord_event :
    onNext (step (idle.withFetchWord 64 0x02643C9000000003)) (fun t =>
        t.eventIdx == 1#32 && t.sampleIdx == 3#32 && t.blkLen == 4#32) = true ∧
      (recordOffset 0x02643C90FFFFFFFE#64).toNat < 2 ^ 32 - 1 ∧
      onNext (step (idle.withFetchWord 64 0x02643C90FFFFFFFE)) (fun t => t.eventIdx == 1#32) = true := by decide

/-- The eager order: a waiting APPLY, then the block, then the port (log 8). -/
theorem test_eager_order :
    ({ block with pendGain := [1#32], port := [.reset] } : State).nextMove = some (.apply .gain) ∧
      ({ block with port := [.reset] } : State).nextMove = some .engine ∧
      ({ idle with held := [.setSampleRate 1#32], port := [.reset] } : State).nextMove = some .engine ∧
      ({ idle with port := [.reset], schedule := [.engine] } : State).nextMove = some .take ∧
      idle.nextMove = none := by decide

/-! ### SET_SAMPLE_RATE (section 2.5) -/

/-- V-SR2, V-SR3, V-SR4 and V-SR7: to nearest, a half up, saturating. -/
theorem test_rescale :
    rescale 33#32 44100#32 48000#32 = 30#32 ∧ rescale 100#32 44100#32 48000#32 = 92#32 ∧
      rescale 67#32 48000#32 96000#32 = 34#32 ∧ rescale 5#32 1#32 2#32 = 3#32 ∧
      rescale 1#32 1#32 2#32 = 1#32 ∧ rescale 2#32 0xFFFFFFFF#32 1#32 = 0xFFFFFFFF#32 ∧
      rescale 0xFFFFFFFF#32 2#32 1#32 = 0xFFFFFFFF#32 ∧ rescale 28#32 48000#32 48000#32 = 28#32 := by decide

/-- V-SR1, V-SR9 and V-SR10: the three cases of R140, each between blocks with nothing held. -/
theorem test_setSampleRate :
    onNext (exec (.setSampleRate 96000#32) { idle48 with astableRun := 33#32, monostableRun := 100#32 })
        (fun t => (t.sampleRate, t.astableRun, t.monostableRun) == (96000#32, 66#32, 200#32)) = true ∧
      onNext (exec (.setSampleRate 48000#32) { idle with astableRun := 7#32, monostableRun := 9#32 })
        (fun t => t == { idle48 with astableRun := 7#32, monostableRun := 9#32 }) = true ∧
      onNext (exec (.setSampleRate 0#32) { idle48 with astableRun := 7#32 })
        (fun t => t == { idle48 with astableRun := 7#32 }) = true := by decide

/-- V-B3: a rate change issued during a block is held, and taken after it (RateChangeWaitsForEnd). -/
theorem test_rate_held :
    onNext (exec (.setSampleRate 96000#32) block) (fun t => t == { block with held := [.setSampleRate 96000#32] })
        = true ∧
      onNext (step { idle48 with held := [.setSampleRate 96000#32], astableRun := 33#32 }) (fun t =>
        t == { idle48 with sampleRate := 96000#32, astableRun := 66#32 }) = true ∧
      onNext (step { idle48 with held := [.setSampleRate 0#32] }) (fun t => t == idle48) = true := by decide

/-- The premises of DoublingTheRateDoublesCounters and RescaleWithinHalfASample. -/
theorem test_doubling_premises :
    idle48.busy = false ∧ idle48.held = [] ∧ idle48.sampleRate ≠ 0#32 ∧ (96000#32 : Word) ≠ 0#32 ∧
      (96000#32 : Word).toNat = 2 * idle48.sampleRate.toNat := by decide

/-! ### Note set and event operations (sections 2.2 and 2.4) -/

/-- V-N1, V-N2 and V-N3. -/
theorem test_note_set :
    notes [60#7] = ⟨#v[0#32, 0x10000000#32, 0#32, 0#32]⟩ ∧
      notes [127#7, 0#7, 31#7, 32#7, 63#7, 64#7, 95#7, 96#7] =
        ⟨#v[0x80000001#32, 0x80000001#32, 0x80000001#32, 0x80000001#32]⟩ ∧
      (notes [40#7, 60#7]).clear 60#7 = ⟨#v[0#32, 0x00000100#32, 0#32, 0#32]⟩ := by decide

/-- V-S4: the lowest held note, and NONE. -/
theorem test_lowest :
    (notes [40#7, 60#7, 70#7]).lowest = 40 ∧ ((notes [40#7, 60#7, 70#7]).clear 40#7).lowest = 60 ∧
      ((notes [70#7]).clear 70#7).lowest = 128 ∧ (notes [127#7, 0#7]).lowest = 0 := by decide

/-- V-D3: the new note's pair, even above a held note; V-D9: T61. -/
theorem test_noteOn :
    (let t := noteOnEffect table 60#7 { idle with notes := notes [40#7] }
     (t.pairA, t.pairB, t.notes)) = (100000#32, 80000#32, notes [40#7, 60#7]) ∧
      (let t := noteOnEffect table 61#7 idle
       (t.pairA, t.pairB)) = (101000#32, 81000#32) := by decide

/-- The meaning sets the note in any state. -/
theorem test_exec_noteOn :
    onNext (exec (.noteOn 127#7 0#8 15#4 9#32) block) (fun t => t.notes == notes [127#7]) = true := by decide

/-- V-D4, V-D4b and V-D2: retune to the lowest held note, or keep the pair. -/
theorem test_noteOff :
    (let t := noteOffEffect table 70#7 { idle with notes := notes [40#7, 60#7] }
     (t.pairA, t.pairB, t.notes)) = (80000#32, 60000#32, notes [40#7, 60#7]) ∧
      (let t := noteOffEffect table 40#7 { idle with pairA := 1#32, notes := notes [40#7, 60#7] }
       (t.pairA, t.pairB, t.notes)) = (100000#32, 80000#32, notes [60#7]) ∧
      (let t := noteOffEffect table 60#7 { idle with pairA := 5#32, notes := notes [60#7] }
       (t.pairA, t.pairB, t.notes)) = (5#32, 80000#32, notes []) := by decide

/-- The premises of the two pair clauses of NoteOffClearsNoteAndRetunes: no note held after, and note 0 or
note 127 the lowest held after. -/
theorem test_noteOff_premises :
    (∀ m : Note, ((notes [60#7]).clear 60#7).held m = false) ∧
      ((notes [127#7, 60#7]).clear 60#7).held 127#7 = true ∧
      (∀ k : Note, ((notes [127#7, 60#7]).clear 60#7).held k = true → (127#7 : Note).toNat ≤ k.toNat) ∧
      ((notes [0#7, 60#7]).clear 60#7).held 0#7 = true := by decide

/-- The bend table of section 2.4, c = 80000. -/
theorem test_bend :
    bentB 80000 (bendOperand 0#14) = 470000 ∧ bentB 80000 (bendOperand 1#14) = 469952 ∧
      bentB 80000 (bendOperand 0x1000#14) = 275000 ∧ bentB 80000 (bendOperand 0x1FFF#14) = 80047 ∧
      bentB 80000 (bendOperand 0x2000#14) = 80000 ∧ bentB 80000 (bendOperand 0x2001#14) = 79990 ∧
      bentB 80000 (bendOperand 0x3000#14) = 40000 ∧ bentB 80000 (bendOperand 0x3FFF#14) = 9 := by decide

/-- V-D5: the centre is the lowest note's; V-D11: not `pair_b`; V-D6: no note held. -/
theorem test_pitchBend :
    (pitchBendEffect table 0x3000#14 { idle with notes := notes [40#7, 60#7] }).pairB = 30000#32 ∧
      (pitchBendEffect table 0x2000#14 { idle with pairB := 12345#32, notes := notes [60#7] }).pairB = 80000#32 ∧
      pitchBendEffect table 0x3000#14 idle = idle := by decide

/-- The premises of PitchBendMovesPairB: no note held, and note 40 the lowest held. -/
theorem test_pitchBend_premises :
    (∀ m : Note, idle.notes.held m = false) ∧ (notes [40#7, 60#7]).held 40#7 = true ∧
      (∀ k : Note, (notes [40#7, 60#7]).held k = true → (40#7 : Note).toNat ≤ k.toNat) := by decide

/-- V-D8 as a due record of a block: the premises of IgnoredRecordsChangeNothing, at `offset = i`. -/
theorem test_ignored :
    (Instr.ignored 2#8 1#8 0x3C#8 0x90#8 1#32).wellFormed = true ∧
      ({ block with sampleIdx := 1#32, evbuf := [2#8 ++ 1#8 ++ 0x3C#8 ++ 0x90#8 ++ 1#32] } : State).nextMove
        = some .engine ∧
      onNext (step { block with sampleIdx := 1#32, evbuf := [2#8 ++ 1#8 ++ 0x3C#8 ++ 0x90#8 ++ 1#32] }) (fun t =>
        t.eventIdx == 1#32 && t.pairA == 100000#32 && t.notes.isEmpty) = true := by decide

/-- The premises of VelocityChannelOffsetNotRead, at both ends of the channel nibble: two notes with different
velocities, two bends with the same `data2`. -/
theorem test_velocity_premises :
    (0x90#8 : Byte).toNat / 16 = (0x9F#8 : Byte).toNat / 16 ∧ (0x90#8 : Byte).toNat / 16 ≠ 0xE ∧
      (0xE0#8 : Byte).toNat / 16 = (0xEF#8 : Byte).toNat / 16 ∧ (0xE0#8 : Byte).toNat / 16 = 0xE ∧
      decodeEvent (3#8 ++ 0#8 ++ 60#8 ++ 0x90#8 ++ 0#32) = .noteOn 60#7 0#8 0#4 0#32 ∧
      decodeEvent (3#8 ++ 100#8 ++ 60#8 ++ 0x9F#8 ++ 7#32) = .noteOn 60#7 100#8 15#4 7#32 := by decide

/-! ### The timer circuit (section 2.1) -/

/-- V-T3, V-T4, V-T7, V-T8 and V-T9. -/
theorem test_retune :
    retune 100000 80000 48000 = ⟨34, 33, 266⟩ ∧ retune 470000 470000 44100 = ⟨144, 144, 1436⟩ ∧
      retune 0 470000 48000 = ⟨0, 0, 1563⟩ ∧ retune 1000 1000 48000 = ⟨1, 0, 3⟩ ∧
      retune 470000 470000 4294967295 = ⟨14018902, 13989138, 139891380⟩ := by decide

/-- V-T10 to V-T16: ties go up, and the edges of one half. -/
theorem test_retune_ties :
    retune 249000 0 200000 = ⟨347, 345, 0⟩ ∧ retune 250000 0 200000 = ⟨348, 347, 0⟩ ∧
      retune 0 312500 48000 = ⟨0, 0, 1040⟩ ∧ retune 503 0 48000 = ⟨0, 0, 0⟩ ∧
      retune 504 0 48000 = ⟨1, 0, 0⟩ ∧ retune 1504 0 48000 = ⟨1, 1, 0⟩ := by decide

/-- The premises of RetuneIsMonotone and RetuneFitsItsWidths, at the largest values. -/
theorem test_retune_premises :
    (0 : Nat) ≤ 470000 ∧ (470000 : Nat) ≤ 470000 ∧ (4294967295 : Nat) < 2 ^ 32 := by decide

/-! ### RENDER_SAMPLE (section 2.6) -/

/-- V-R9: released and re-triggered. -/
theorem test_render_retrigger :
    onNext (step { block with astableRun := 34#32, monostableRun := 300#32 }) (fun t =>
      (t.astableRun, t.monostableRun, t.outputLevel, t.out) == (35#32, 1#32, true, [0x3F800000#32])) = true := by
  decide

/-- V-R10: step 1 wraps an over-range counter, and the level is kept. -/
theorem test_render_wrap :
    onNext (step { block with astableRun := 80#32, monostableRun := 5#32, outputLevel := true }) (fun t =>
      (t.astableRun, t.monostableRun, t.outputLevel, t.sampleIdx) == (1#32, 6#32, true, 1#32)) = true := by decide

/-- The premises of RenderStepFollowsR150 in its three cases: kept, released, re-triggered. -/
theorem test_render_premises :
    block.nextMove = some .engine ∧ block.sampleIdx < block.blkLen ∧ block.dueEvent = none ∧
      retune block.pairA.toNat block.pairB.toNat block.sampleRate.toNat = ⟨34, 33, 266⟩ ∧
      ¬ block.timings.monostableHigh ≤ block.monostableRun.toNat ∧
      ({ block with evbuf := [0x03643C9000000001#64] } : State).dueEvent = none ∧
      block.timings.monostableHigh ≤ ({ block with monostableRun := 266#32 } : State).monostableRun.toNat ∧
      wrappedAstable { block with astableRun := 67#32 } = 0 ∧
      wrappedAstable { block with astableRun := 66#32 } = 66 := by decide

/-- V-R6: low with gain 0 is -0.0; silence is +0.0; counters saturate (R229). -/
theorem test_mux :
    mux false false false 0#32 = 0x80000000#32 ∧ mux true false true 0x3F800000#32 = 0#32 ∧
      mux true true true 0x3F000000#32 = 0x3F000000#32 ∧ saturate (0xFFFFFFFF + 1) = 0xFFFFFFFF#32 := by decide

/-- The premises of SilenceIsExactWhateverTheCounters, and of the two clauses of
LevelChangesOnlyWithASample: a sample and a reset that change the level. -/
theorem test_silence_and_level :
    (onNext (step { block with gestureActive := false, astableRun := 34#32, monostableRun := 300#32 }) fun t =>
        t.out == [0#32] && t.outputLevel) = true ∧
      (onNext (step { idle with outputLevel := true, port := [.reset] }) fun t => !t.outputLevel) = true := by
  decide

/-- The premises of OnlyTheNamedOperationsWrite. -/
theorem test_frame_premises :
    onNext (exec (.setGain 5#32) block) (fun t => t == { block with pendGain := [5#32] }) = true ∧
      Instr.setGain 5#32 ≠ .reset ∧ (∀ r, Instr.setGain 5#32 ≠ .setSampleRate r) ∧
      (∀ l, Instr.setGain 5#32 ≠ .renderBlock l) := by
  refine ⟨by decide, by decide, ?_, ?_⟩ <;> intro _ h <;> cases h

/-- Every kind of writer that EachRegisterHasItsWriters names changes its register: an APPLY, a rate change, a
START, RENDER_SAMPLE, END and RESET. -/
theorem test_writers :
    onNext (step { idle with pendGain := [0#32] }) (fun t => t.gain != idle.gain) = true ∧
      onNext (step { idle48 with held := [.setSampleRate 96000#32], astableRun := 33#32 }) (fun t =>
        t.sampleRate != 48000#32 && t.astableRun != 33#32) = true ∧
      onNext (step { idle with held := [.renderBlock 3#32], eventPort := [[0#64]] }) (fun t =>
        t.busy && t.blkLen == 3#32 && t.evbuf == [0#64]) = true ∧
      onNext (step { block with astableRun := 34#32, monostableRun := 300#32 }) (fun t =>
        t.astableRun != 34#32 && t.outputLevel && t.sampleIdx == 1#32) = true ∧
      onNext (step { block with sampleIdx := 3#32 }) (fun t => !t.busy) = true ∧
      onNext (step { idle48 with port := [.reset] }) (fun t => t.sampleRate != 48000#32) = true := by decide

/-- A DISPATCH of NOTE_ON changes the notes and moves the cursor (EachRegisterHasItsWriters). -/
theorem test_writers_dispatch :
    onNext (step { block with evbuf := [0x03643C9000000000#64] }) (fun t =>
      t.notes == notes [60#7] && t.eventIdx == 1#32) = true := by decide

/-- The three ways of WaitingWriteLeavesOnlyByApplyOrReset: more waits behind, APPLY of the head, and RESET. -/
theorem test_waiting_write :
    onNext (step { block with pendA := [1#32], port := [.command (encode (.setPotA 2#32))], schedule := [.take] })
        (fun t => t.pendA == [1#32, 2#32]) = true ∧
      onNext (step { block with pendGesture := [3#32, 4#32] }) (fun t =>
        t.pendGesture == [4#32] && t.gestureActive) = true ∧
      onNext (step { idle with pendA := [1#32], port := [.reset], schedule := [.take] }) (fun t =>
        t.pendA.isEmpty) = true := by decide

/-- The fixture's registers are in range. -/
theorem test_registers_legal : RegistersLegal block := ⟨by decide, by decide, by decide⟩

/-- The premises of PulseTrainHasItsPeriod (V-R1's re-trigger) and of BarePulsesHaveTheAstablePeriod
(V-R2). -/
theorem test_pulse_premises :
    (0 < block.timings.astableLow ∧ 1 ≤ block.timings.monostableHigh ∧
        ({ block with astableRun := 34#32 } : State).astableRun.toNat = block.timings.astableHigh ∧
        block.timings.monostableHigh ≤ ({ block with monostableRun := 302#32 } : State).monostableRun.toNat) ∧
      (0 < ({ block with pairB := 0#32 } : State).timings.astableLow ∧
        ({ block with pairB := 0#32 } : State).timings.monostableHigh = 0) := by decide

/-- The premises of LevelFreezesWithoutAGrid (V-R3 and V-R4). -/
theorem test_freeze_premises :
    ({ block with pairA := 0#32, outputLevel := true } : State).timings = ⟨0, 0, 266⟩ ∧
      ({ block with pairA := 504#32, pairB := 0#32 } : State).timings = ⟨1, 0, 0⟩ := by decide

/-! ### Blocks (section 2.7) -/

/-- START: the premises of RenderBlockStarts. -/
theorem test_renderBlock :
    idle48.busy = false ∧ idle48.held = [] ∧
      (({ idle48 with eventPort := [[0x03643C9000000000#64], []] } : State).eventPort.headD []).length < 2 ^ 32 ∧
      onNext (exec (.renderBlock 3#32) { idle48 with eventPort := [[0x03643C9000000000#64], []] }) (fun t =>
        t == { idle48 with busy := true, blkLen := 3#32, evbuf := [0x03643C9000000000#64],
                           eventPort := [[]] }) = true := by decide

/-- V-B2: a block of length 0 ends at once and returns 0; V-D14: a record at `L` is discarded
(BlockEndDeliversItsWords). -/
theorem test_block_end :
    onNext (step { block with blkLen := 0#32, evbuf := [0x03643C9000000000#64] }) (fun t =>
        t == { block with busy := false, blkLen := 0#32, finished := [⟨[], 0#32⟩] }) = true ∧
      ({ block with sampleIdx := 3#32 } : State).nextMove = some .engine ∧
      ({ block with sampleIdx := 3#32 } : State).blkLen ≤ ({ block with sampleIdx := 3#32 } : State).sampleIdx := by
  decide

/-- V-B3: held during a block, and START when idle (RenderBlockWaitsForEnd). -/
theorem test_renderBlock_held :
    onNext (exec (.renderBlock 2#32) block) (fun t => t == { block with held := [.renderBlock 2#32] }) = true ∧
      ({ idle48 with held := [.renderBlock 2#32] } : State).nextMove = some .engine ∧
      onNext (step { idle48 with held := [.renderBlock 2#32, .setSampleRate 1#32] }) (fun t =>
        t.busy && t.blkLen == 2#32 && t.held == [.setSampleRate 1#32]) = true := by decide

/-- The premises of BlockRunsToItsEnd. -/
theorem test_progress_legal :
    ProgressLegal block ∧ block.busy = true ∧ block.schedule = [] ∧ ∀ f : Fifo, block.pending f = [] :=
  ⟨⟨by decide, by decide, by decide, by decide, by decide⟩, rfl, rfl, fun f => by cases f <;> rfl⟩

/-- Two records of P2 keep R128 in their order; the two of V-D13 do not. -/
theorem test_events_in_order :
    EventsInOrder 8#32 [0x03003C8000000003#64, 0x0300288000000005#64] ∧
      ¬ EventsInOrder 4#32 [0x03013C9000000002#64, 0x0301289000000001#64] := by
  refine ⟨⟨?_, ?_⟩, fun h => ?_⟩
  · intro r h
    rcases List.mem_cons.mp h with rfl | h
    · decide
    · rw [List.mem_singleton.mp h]; decide
  · exact List.pairwise_pair.mpr (by decide)
  · exact absurd (List.pairwise_pair.mp h.ordered) (by decide)

/-- A block whose one record is due at its current sample. -/
def midBlock : State :=
  { block with evbuf := [0x03643C9000000002#64], sampleIdx := 2#32, out := [0#32, 0#32] }

/-- The same block at its end. -/
def atEnd : State := { block with evbuf := [0x03643C9000000002#64], sampleIdx := 3#32, eventIdx := 1#32 }

/-- Both are on time (OrderedBlockLosesNoEvent). -/
theorem test_on_time : OnTime midBlock ∧ OnTime atEnd := by
  have hm : midBlock.evbuf = [0x03643C9000000002#64] := rfl
  have he : atEnd.evbuf = [0x03643C9000000002#64] := rfl
  have hr : midBlock.eventRead = some 0x03643C9000000002#64 := by decide
  have hn : atEnd.eventRead = none := by decide
  refine ⟨⟨?_, ?_, ?_⟩, ⟨?_, ?_, ?_⟩⟩
  · rw [hm]; intro _ r h; rw [List.mem_singleton.mp h]; decide
  · rw [hm]; exact fun _ => List.pairwise_singleton _ _
  · rw [hr]; intro _ r h; cases h; decide
  · rw [he]; intro _ r h; rw [List.mem_singleton.mp h]; decide
  · rw [he]; exact fun _ => List.pairwise_singleton _ _
  · rw [hn]; intro _ r h; cases h

/-- The premises of the other clauses of OrderedBlockLosesNoEvent: a legal block, and one at its end. -/
theorem test_on_time_premises :
    ProgressLegal midBlock ∧ atEnd.busy = true ∧ atEnd.blkLen ≤ atEnd.sampleIdx :=
  ⟨⟨by decide, by decide, by decide, by decide, by decide⟩, by decide, by decide⟩

/-! ### Reset and the whole machine -/

/-- V-X1: every element at its reset value, with a write still pending. -/
theorem test_reset :
    onNext (exec .reset { idle48 with astableRun := 64#32, outputLevel := true, notes := notes [60#7],
                                      pendA := [1#32], gestureActive := true }) (fun t =>
      (t.sampleRate, t.astableRun, t.outputLevel, t.notes, t.pendA, t.gestureActive)
        == (0#32, 0#32, false, notes [], [], false)) = true := by decide

/-- V-X2: refused during a block. -/
theorem test_reset_refused : refuses (exec .reset block) .resetWhileBusy = true ∧ block.busy = true := by decide

/-- A state inside a block that meets the invariant, and steps (StepKeepsTheInvariant). -/
theorem test_inv_block : Inv block ∧ (onNext (step block) fun t => t.sampleIdx == 1#32) = true :=
  ⟨⟨test_registers_legal, test_progress_legal.1,
    ⟨fun _ h => (by cases h), fun _ h => (by cases h)⟩⟩, by decide⟩

/-- The first two refusals of OnlyTheNamedRefusals. -/
theorem test_refusals :
    refuses (step { block with port := [.reset], schedule := [.take] }) .resetWhileBusy = true ∧
      refuses (step { idle with port := [.command [1#8]] }) (.wrongSizeWord 1) = true := by decide

/-- Its third: a list of 2^32 records or more, and that there is one (log 5). -/
theorem test_too_many_events :
    (∃ es : List EventRecord, 2 ^ 32 ≤ es.length) ∧
      ∀ (l : Word) (es : List EventRecord), 2 ^ 32 ≤ es.length →
        exec (.renderBlock l) { idle with eventPort := [es] } = .refused .tooManyEvents := by
  refine ⟨⟨List.replicate (2 ^ 32) 0#64, by rw [List.length_replicate]⟩, fun l es h => ?_⟩
  have hm : ({ idle with eventPort := [es] } : State).mustHold = false := rfl
  have e : exec (.renderBlock l) { idle with eventPort := [es] } =
      startBlock l { idle with eventPort := [es] } := by
    show execRenderBlock l _ = _
    unfold execRenderBlock; rw [hm]; rfl
  rw [e]
  rcases startBlock_cases l { idle with eventPort := [es] } with ⟨hl, _⟩ | ⟨_, e⟩
  · exact absurd h (Nat.not_le.mpr hl)
  · exact e

/-- The premises of IdleEngineWaits. -/
theorem test_idle_waits :
    idle.busy = false ∧ idle.held = [] ∧ idle.port = [] ∧ (∀ f : Fifo, idle.pending f = []) ∧
      onNext (step { idle with schedule := [.engine, .take] }) (fun t => t == { idle with schedule := [.take] })
        = true :=
  ⟨rfl, rfl, rfl, fun f => by cases f <;> rfl, by decide⟩

/-- An ill-formed note table is refused: an entry above 470000, and one entry only (R31). -/
theorem test_load_table :
    (Config.loadNoteEntry (470001, 0, 0)).isNone = true ∧ (Config.loadNoteEntry (470000, 470000, 7)).isSome = true ∧
      (Config.loadNoteTable ([(1, 1, 1)])).isNone = true := by decide

/-- A table that loads (NoteTableLoadsOnlyIfWellFormed). -/
theorem test_load_table_whole :
    ∃ t, Config.loadNoteTable (List.replicate 128 (470000, 0, 7)) = some t := by
  have hm : ∀ n, (List.replicate n (470000, 0, 7)).mapM Config.loadNoteEntry =
      some (List.replicate n ⟨⟨470000, by decide⟩, ⟨0, by decide⟩, ⟨7⟩⟩) := by
    intro n
    induction n with
    | zero => rfl
    | succ n ih => rw [List.replicate_succ, List.mapM_cons, ih]; rfl
  unfold Config.loadNoteTable
  rw [hm]
  exact ⟨_, dif_pos List.length_replicate⟩

/-! ### The assembler (R83, R84) -/

/-- Lines of P1, P2 and section 2.8, read and expanded. -/
theorem test_assemble_lines :
    readLine "pot_a -5".toList = some (.potA (-5)) ∧
      readLine "  @0 0x90 60 100 ; a note".toList = some (.event 0 0x90 60 100 3) ∧
      readLine "@0 0x90 60 1 /2".toList = some (.event 0 0x90 60 1 2) ∧
      readLine "cmd 0xFF 0x12345678".toList = some (.cmd 255 0x12345678) ∧
      readLine "pot_c 1".toList = none := by decide

/-- Expansion of `bend`, at both ends of its range, and operands out of range. -/
theorem test_expand :
    expandLine (.bend 1 4096) = some [.event 0x036000E000000001#64] ∧
      expandLine (.bend 0 (-8192)) = some [.event 0x030000E000000000#64] ∧
      expandLine (.bend 0xFFFFFFFF 8191) = some [.event 0x037F7FE0FFFFFFFF#64] ∧
      expandLine (.bend 0 8192) = none ∧ expandLine (.rate (-1)) = none ∧
      expandLine (.on 0 60 100) = some [.event 0x03643C9000000000#64] := by decide

/-- Event lines with the fields of R74, and the pseudo-instructions `off`, `bendraw`, `pair` and `mute`. -/
theorem test_expand_more :
    expandLine (.event 5 0xB0 7 0x64 2) = some [.event 0x026407B000000005#64] ∧
      expandLine (.event 5 0x100 7 0x64 2) = none ∧
      expandLine (.off 3 60 0) = some [.event 0x03003C8000000003#64] ∧
      expandLine (.bendraw 1 0x3000) = some [.event 0x036000E000000001#64] ∧
      expandLine (.pair 504 (-5)) = some [.command 1#8 504#32, .command 2#8 0xFFFFFFFB#32] ∧
      expandLine .mute = some [.command 4#8 0#32] := by decide

/-- A `cmd 0x06` line brings the empty event list, and the next block keeps its own (log 19); the premise of
EveryAssembledBlockHasItsList. -/
theorem test_assemble_cmd_render :
    (assemble [.cmd 6 1, .render 8, .event 0 0x90 60 100 3, .close]).map (fun p =>
        (p.blocks, p.arrivals.countP Arrival.isRenderBlock)) =
      some ([[], [0x03643C9000000000#64]], 2) := by decide

/-- The premise of the first clause of EveryAssembledBlockHasItsList: two event lines, and none. -/
theorem test_expand_all_events :
    expandAll [.event 0 0x90 60 100 3, .off 3 60 0] =
        some (List.map CoreLine.event [0x03643C9000000000#64, 0x03003C8000000003#64]) ∧
      expandAll [] = some (List.map CoreLine.event []) := by decide

/-- `render` at both ends of its length and one past it, and `reset` between two blocks. -/
theorem test_assemble_render :
    expandLine (.render 0) = some [.openBlock 0#32] ∧
      expandLine (.render 0xFFFFFFFF) = some [.openBlock 0xFFFFFFFF#32] ∧
      expandLine (.render 0x100000000) = none ∧
      (assemble [.renderEmpty 3, .reset]).map (fun p => (p.arrivals, p.blocks)) =
        some ([.command [3#8, 0#8, 0#8, 0#8, 6#8], .reset], [[]]) := by decide

/-- P2's two commands and their event list. -/
theorem test_assemble_program :
    (assemble [.rate 48000, .render 8, .event 0 0x90 60 100 3, .close]).map (fun p => (p.arrivals, p.blocks)) =
      some ([.command [0x80#8, 0xBB#8, 0#8, 0#8, 5#8], .command [8#8, 0#8, 0#8, 0#8, 6#8]],
        [[0x03643C9000000000#64]]) ∧
      assemble [.event 0 0x90 60 100 3] = none := by decide

end Sys2Proof.Tests
end

/-! SUPPORT. The two decoders read field by field: what they answer by length, and the rows of an event record as arithmetic on its bytes (spec/20_memory.md R55; spec/30_encoding.md R74 to R78, R85). -/

namespace Sys2Proof

/-! ### The length check (R55, R85) -/

theorem decodeBytes_wrongSize {f : Format} {bytes : List Byte} (h : bytes.length ≠ f.bytes) :
    decodeBytes f bytes = .error (.wrongSize bytes.length) := by
  unfold decodeBytes; exact if_neg h

theorem decodeBytes_cmd40 {bytes : List Byte} (h : bytes.length = 5) :
    decodeBytes .cmd40 bytes = .ok (decodeCommand (BitVec.ofNat 40 (natOfBytes bytes))) := by
  unfold decodeBytes; exact if_pos h

theorem decodeBytes_evt64 {bytes : List Byte} (h : bytes.length = 8) :
    decodeBytes .evt64 bytes = .ok (decodeEvent (BitVec.ofNat 64 (natOfBytes bytes))) := by
  unfold decodeBytes; exact if_pos h

/-! ### The fields of a record built from its fields (R74) -/

/-- A field of a word as a number: the word without the bits below the field and above it. -/
theorem extractLsb'_eq_iff {m len : Nat} (x : BitVec m) (start : Nat) (y : BitVec len) :
    x.extractLsb' start len = y ↔ x.toNat / 2 ^ start % 2 ^ len = y.toNat := by
  rw [← BitVec.toNat_inj, BitVec.extractLsb'_toNat, Nat.shiftRight_eq_div_pow]

section Fields
variable (nb d2 d1 st : Byte) (o : Word)

@[simp] theorem recordNbytes_eventRecord : recordNbytes (eventRecord nb d2 d1 st o) = nb := by
  rw [recordNbytes, extractLsb'_eq_iff, eventRecord_toNat]; omega

@[simp] theorem recordData2_eventRecord : recordData2 (eventRecord nb d2 d1 st o) = d2 := by
  rw [recordData2, extractLsb'_eq_iff, eventRecord_toNat]; omega

@[simp] theorem recordData1_eventRecord : recordData1 (eventRecord nb d2 d1 st o) = d1 := by
  rw [recordData1, extractLsb'_eq_iff, eventRecord_toNat]; omega

@[simp] theorem recordStatus_eventRecord : recordStatus (eventRecord nb d2 d1 st o) = st := by
  rw [recordStatus, extractLsb'_eq_iff, eventRecord_toNat]; omega

@[simp] theorem recordOffset_eventRecord : recordOffset (eventRecord nb d2 d1 st o) = o := by
  rw [recordOffset, extractLsb'_eq_iff, eventRecord_toNat]; omega

/-- The rows of R76 in their order, each by the predicate that well-formedness names it with. -/
theorem decodeEvent_eventRecord :
    decodeEvent (eventRecord nb d2 d1 st o) =
      if matchesNoteOff nb d1 st then .noteOff (d1.extractLsb' 0 7) d2 (st.extractLsb' 0 4) o
      else if matchesNoteOn nb d1 st then .noteOn (d1.extractLsb' 0 7) d2 (st.extractLsb' 0 4) o
      else if matchesPitchBend nb d2 d1 st then .pitchBend (bendValueOf d2 d1) (st.extractLsb' 0 4) o
      else .ignored nb d2 d1 st o := by
  simp [decodeEvent, matchesNoteOff, matchesNoteOn, matchesPitchBend]

end Fields

/-! ### The parts of a byte as arithmetic (R77, R78) -/

/-- A data byte is a 7-bit value when its bit 7 is clear (R77). -/
theorem getLsbD_seven_eq_false_iff (b : Byte) : b.getLsbD 7 = false ↔ b.toNat < 128 := by
  rw [← BitVec.msb_eq_getLsbD_last b, BitVec.msb_eq_false_iff_two_mul_lt]
  omega

theorem highNibble_eq_iff (b : Byte) (k : BitVec 4) : b.extractLsb' 4 4 = k ↔ b.toNat / 16 = k.toNat := by
  rw [extractLsb'_eq_iff]; omega

theorem extractLsb'_zero_eq_ofNat {m : Nat} (x : BitVec m) (n : Nat) :
    x.extractLsb' 0 n = BitVec.ofNat n x.toNat := rfl

/-- R78: the two 7-bit halves are the digits of the bend value to base 128. -/
theorem bendValueOf_eq_ofNat {d1 : Byte} (d2 : Byte) (h : d1.toNat < 128) :
    bendValueOf d2 d1 = BitVec.ofNat 14 (d2.toNat * 128 + d1.toNat) := by
  apply BitVec.eq_of_toNat_eq
  simp only [bendValueOf, extractLsb'_zero_eq_ofNat, toNat_append_eq, BitVec.toNat_ofNat]
  omega

/-! ### The rows of R76 as arithmetic -/

theorem matchesNoteOff_iff (nb d1 st : Byte) :
    matchesNoteOff nb d1 st = true ↔ nb.toNat = 3 ∧ st.toNat / 16 = 0x8 ∧ d1.toNat < 128 := by
  simp only [matchesNoteOff, Bool.and_eq_true, beq_iff_eq, ← BitVec.toNat_inj (x := nb), highNibble_eq_iff,
    getLsbD_seven_eq_false_iff, BitVec.reduceToNat, and_assoc]

theorem matchesNoteOn_iff (nb d1 st : Byte) :
    matchesNoteOn nb d1 st = true ↔ nb.toNat = 3 ∧ st.toNat / 16 = 0x9 ∧ d1.toNat < 128 := by
  simp only [matchesNoteOn, Bool.and_eq_true, beq_iff_eq, ← BitVec.toNat_inj (x := nb), highNibble_eq_iff,
    getLsbD_seven_eq_false_iff, BitVec.reduceToNat, and_assoc]

theorem matchesPitchBend_iff (nb d2 d1 st : Byte) :
    matchesPitchBend nb d2 d1 st = true ↔
      nb.toNat = 3 ∧ st.toNat / 16 = 0xE ∧ d1.toNat < 128 ∧ d2.toNat < 128 := by
  simp only [matchesPitchBend, Bool.and_eq_true, beq_iff_eq, ← BitVec.toNat_inj (x := nb), highNibble_eq_iff,
    getLsbD_seven_eq_false_iff, BitVec.reduceToNat, and_assoc]

end Sys2Proof

/-! ### The obligations -/

namespace Sys2Proof.Proofs

/-- Settles O5: the decoder's rows are the predicates of R76, and each predicate is its arithmetic. -/
theorem eventDecodeByPriority : Obligations.EventDecodeByPriority := by
  intro nb d2 d1 st o
  have rows := decodeEvent_eventRecord nb d2 d1 st o
  simp only [matchesNoteOff_iff, matchesNoteOn_iff, matchesPitchBend_iff,
    extractLsb'_zero_eq_ofNat] at rows
  refine rows.trans (if_congr Iff.rfl rfl (if_congr Iff.rfl rfl (if_ctx_congr Iff.rfl ?bend fun _ => rfl)))
  case bend =>
    rintro ⟨-, -, h1, -⟩
    rw [bendValueOf_eq_ofNat d2 h1]

/-- Settles O3: the only check both decoders make is the one on the length. -/
theorem decodersRefuseOnlyWrongSizes : Obligations.DecodersRefuseOnlyWrongSizes := fun _ =>
  ⟨fun h => ⟨_, decodeBytes_cmd40 h⟩, fun h => decodeBytes_wrongSize h,
    fun h => ⟨_, decodeBytes_evt64 h⟩, fun h => decodeBytes_wrongSize h⟩

end Sys2Proof.Proofs

/-! ### The timer circuit (R100 to R105) -/

namespace Sys2Proof.Proofs
open Sys2Proof.Machine

/-- Settles O27: each timing is a `RoundHalfUp` over a positive scale, so the bounds that characterise rounding hold
of each numerator. -/
theorem retuneRoundsToNearest : Obligations.RetuneRoundsToNearest := by
  intro a b sr
  rw [retune_astableHigh, retune_astableLow, retune_monostableHigh]
  have astablePos : 0 < 10 ^ 11 := by decide
  have monostablePos : 0 < 10 ^ 10 := by decide
  exact ⟨roundHalfUp_spec (693 * (a + 1000) * sr) _ astablePos,
    roundHalfUp_spec (693 * a * sr) _ astablePos,
    roundHalfUp_spec (693 * b * sr) _ monostablePos⟩

end Sys2Proof.Proofs

/-! ### The records of the event operations (R76 to R78) -/

namespace Sys2Proof

theorem dataByte_toNat (n : BitVec 7) : (0#1 ++ n : Byte).toNat = n.toNat := by
  rw [toNat_append_eq]; simp

theorem statusByte_toNat (nibble channel : BitVec 4) :
    (nibble ++ channel : Byte).toNat = 16 * nibble.toNat + channel.toNat := toNat_append_eq nibble channel

theorem statusByte_nibble (nibble channel : BitVec 4) :
    (nibble ++ channel : Byte).toNat / 16 = nibble.toNat := by
  rw [statusByte_toNat]; omega

theorem ofNat_statusByte_toNat (nibble channel : BitVec 4) :
    BitVec.ofNat 4 (nibble ++ channel : Byte).toNat = channel := by
  apply BitVec.eq_of_toNat_eq
  rw [statusByte_toNat, BitVec.toNat_ofNat]; omega

/-- A three-byte record whose first data byte carries a 7-bit value: the status nibble picks the row of R76. -/
theorem decodeEvent_threeByte (n : Note) (d2 : Byte) (nibble c : BitVec 4) (o : Word) :
    decodeEvent (0x03#8 ++ d2 ++ (0#1 ++ n) ++ (nibble ++ c) ++ o) =
      if nibble = 0x8#4 then .noteOff n d2 c o
      else if nibble = 0x9#4 then .noteOn n d2 c o
      else if nibble = 0xE#4 ∧ d2.toNat < 128 then
        .pitchBend (BitVec.ofNat 14 (d2.toNat * 128 + n.toNat)) c o
      else .ignored 0x03#8 d2 (0#1 ++ n) (nibble ++ c) o := by
  rw [Proofs.eventDecodeByPriority, statusByte_nibble, ofNat_statusByte_toNat, dataByte_toNat]
  simp only [← BitVec.toNat_inj (x := nibble), BitVec.reduceToNat, n.isLt, BitVec.ofNat_toNat,
    BitVec.setWidth_eq, true_and, and_true]

/-- R78: the value is what its two 7-bit halves spell. -/
theorem bendValue_halves (v : BendValue) :
    BitVec.ofNat 14 ((v.extractLsb' 7 7).toNat * 128 + (v.extractLsb' 0 7).toNat) = v := by
  have := v.isLt
  apply BitVec.eq_of_toNat_eq
  simp only [BitVec.toNat_ofNat, BitVec.extractLsb'_toNat, Nat.shiftRight_eq_div_pow]
  omega

/-- A well-formed IGNORED operation is what its own record decodes to, as no row above it matches (R76). -/
theorem decodeEvent_ignored {nb d2 d1 st : Byte} {o : Word}
    (hwf : (Instr.ignored nb d2 d1 st o).wellFormed = true) :
    decodeEvent (eventRecord nb d2 d1 st o) = .ignored nb d2 d1 st o := by
  simp only [Instr.wellFormed, Bool.and_eq_true, Bool.not_eq_true'] at hwf
  obtain ⟨⟨hoff, hon⟩, hbend⟩ := hwf
  simp [decodeEvent_eventRecord, hoff, hon, hbend]

end Sys2Proof

namespace Sys2Proof.Machine

/-! ### The four meanings (R121 to R124) -/

section Meanings
variable (s : State)

theorem exec_noteOn (n : Note) (v : Byte) (c : BitVec 4) (o : Word) :
    exec (.noteOn n v c o) s = .next (noteOnEffect Config.noteTable n s) := rfl

theorem exec_noteOff (n : Note) (v : Byte) (c : BitVec 4) (o : Word) :
    exec (.noteOff n v c o) s = .next (noteOffEffect Config.noteTable n s) := rfl

theorem exec_pitchBend (v : BendValue) (c : BitVec 4) (o : Word) :
    exec (.pitchBend v c o) s = .next (pitchBendEffect Config.noteTable v s) := rfl

theorem exec_ignored (nb d2 d1 st : Byte) (o : Word) : exec (.ignored nb d2 d1 st o) s = .next s := rfl

end Meanings

/-! ### The words of the note set (R110 to R112) -/

theorem noteWordIndex_toNat (n : Note) : (noteWordIndex n).toNat = n.toNat / 32 := by
  have := n.isLt
  rw [noteWordIndex, BitVec.extractLsb'_toNat, Nat.shiftRight_eq_div_pow]
  omega

theorem noteBit_eq (n : Note) : noteBit n = 1#32 <<< (n.toNat % 32) := by
  rw [noteBit, BitVec.extractLsb'_toNat, Nat.shiftRight_zero]

/-- An update of the word that holds note `n`, word by word (R110). -/
theorem word_update (ns : NoteSet) (n : Note) (f : Word → Word) (j : BitVec 2) :
    (ns.setWord (noteWordIndex n) (f (ns.word (noteWordIndex n)))).word j =
      if j.toNat = n.toNat / 32 then f (ns.word j) else ns.word j := by
  have hindex : j = noteWordIndex n ↔ j.toNat = n.toNat / 32 := by
    rw [← BitVec.toNat_inj, noteWordIndex_toNat]
  rw [word_setWord]
  exact ite_congr (propext hindex) (fun h => by rw [hindex.mpr h]) fun _ => rfl

/-- NS_SET word by word (R111). -/
theorem word_set (ns : NoteSet) (n : Note) (j : BitVec 2) :
    (ns.set n).word j =
      if j.toNat = n.toNat / 32 then ns.word j ||| (1#32 <<< (n.toNat % 32)) else ns.word j := by
  rw [NoteSet.set, noteBit_eq]
  exact word_update ns n (· ||| _) j

/-- NS_CLEAR word by word (R112). -/
theorem word_clear (ns : NoteSet) (n : Note) (j : BitVec 2) :
    (ns.clear n).word j =
      if j.toNat = n.toNat / 32 then ns.word j &&& ~~~(1#32 <<< (n.toNat % 32)) else ns.word j := by
  rw [NoteSet.clear, noteBit_eq]
  exact word_update ns n (· &&& _) j

/-! ### The governing note (R113, R114) -/

theorem isEmpty_iff_held (ns : NoteSet) : ns.isEmpty = true ↔ ∀ m : Note, ns.held m = false := by
  rcases lowest_spec ns with ⟨he, -, hnone⟩ | ⟨he, n, -, hn, -⟩
  · exact iff_of_true he hnone
  · exact iff_of_false (by simp [he]) fun h => by simp [h n] at hn

theorem isEmpty_eq_false_of_held {ns : NoteSet} {m : Note} (hm : ns.held m = true) : ns.isEmpty = false := by
  rw [Bool.eq_false_iff, Ne, isEmpty_iff_held]
  exact fun h => by simp [h m] at hm

section Least
variable {ns : NoteSet} {m : Note} (hm : ns.held m = true)
  (hleast : ∀ k : Note, ns.held k = true → m.toNat ≤ k.toNat)
include hm hleast

/-- NS_LOWEST is the least held note, whichever way that note is named (R113). -/
theorem lowest_eq_of_least : ns.lowest = m.toNat := by
  rcases lowest_spec ns with ⟨-, -, hnone⟩ | ⟨-, n, hlow, hn, hmin⟩
  · simp [hnone m] at hm
  · exact hlow.trans (Nat.le_antisymm (hmin m hm) (hleast n hn))

theorem governingEntry_of_least (table : Config.NoteTable) : governingEntry table ns = tableRead table m := by
  rw [governingEntry, lowest_eq_of_least hm hleast, BitVec.ofNat_toNat, BitVec.setWidth_eq]

end Least

/-! ### What NOTE_OFF writes (R122) -/

@[simp] theorem noteOffEffect_notes (table : Config.NoteTable) (n : Note) (s : State) :
    (noteOffEffect table n s).notes = s.notes.clear n := by
  rcases noteOffEffect_cases table n s with ⟨-, he⟩ | ⟨-, he⟩ <;> rw [he]

/-- The frame of NOTE_OFF: the note set and the pair are all it writes. -/
theorem noteOffEffect_frame (table : Config.NoteTable) (n : Note) (s : State) :
    noteOffEffect table n s =
      { s with
        notes := (noteOffEffect table n s).notes
        pairA := (noteOffEffect table n s).pairA
        pairB := (noteOffEffect table n s).pairB } := by
  rcases noteOffEffect_cases table n s with ⟨-, he⟩ | ⟨-, he⟩ <;> rw [he]

theorem noteOffEffect_of_none_held (table : Config.NoteTable) (n : Note) (s : State)
    (hnone : ∀ m : Note, (s.notes.clear n).held m = false) :
    noteOffEffect table n s = { s with notes := s.notes.clear n } := by
  rcases noteOffEffect_cases table n s with ⟨-, he⟩ | ⟨hne, -⟩
  · exact he
  · rw [(isEmpty_iff_held _).mpr hnone] at hne
    exact absurd hne (by decide)

theorem noteOffEffect_of_least (table : Config.NoteTable) (n : Note) (s : State) {m : Note}
    (hm : (s.notes.clear n).held m = true)
    (hleast : ∀ k : Note, (s.notes.clear n).held k = true → m.toNat ≤ k.toNat) :
    noteOffEffect table n s =
      { s with
        notes := s.notes.clear n
        pairA := BitVec.ofNat 32 (tableRead table m).a.val
        pairB := BitVec.ofNat 32 (tableRead table m).b.val } := by
  rcases noteOffEffect_cases table n s with ⟨he, -⟩ | ⟨-, he⟩
  · rw [isEmpty_eq_false_of_held hm] at he
    exact absurd he (by decide)
  · rw [he, governingEntry_of_least hm hleast]

/-! ### The bend (R78, R123) -/

theorem bendOperand_eq (v : BendValue) : bendOperand v = (v.toNat : Int) - 8192 := rfl

/-- R123 upward: the pair falls by the ceiling of its exact share, so it is the floor of the exact value. -/
theorem bentB_toNat_of_le (c : Nat) {v : BendValue} (hv : 8192 ≤ v.toNat) :
    (bentB c (bendOperand v)).toNat = c - ((v.toNat - 8192) * c + 8191) / 8192 := by
  obtain ⟨d, hd⟩ := Nat.exists_eq_add_of_le hv
  have hbend : bendOperand v = d := by rw [bendOperand_eq, hd]; omega
  rw [hbend, hd, bentB, if_pos (by omega), ceilDiv, Nat.add_sub_cancel_left, ← Nat.cast_mul]
  omega

/-- R123 downward: the pair rises by the floor of its share of the distance to `POT_MAX`. -/
theorem bentB_toNat_of_lt {c : Nat} (hc : c ≤ Config.potMax) {v : BendValue} (hv : v.toNat < 8192) :
    (bentB c (bendOperand v)).toNat = c + (8192 - v.toNat) * (470000 - c) / 8192 := by
  have hbend : -bendOperand v = ((8192 - v.toNat : Nat) : Int) := by rw [bendOperand_eq]; omega
  have hroom : (Config.potMax : Int) - c = ((470000 - c : Nat) : Int) := by
    unfold Config.potMax at hc ⊢; omega
  rw [bentB, if_neg (by omega), hbend, hroom, ← Nat.cast_mul]
  omega

theorem storeInt_bentB {c : Nat} (hc : c ≤ Config.potMax) (v : BendValue) :
    storeInt (bentB c (bendOperand v)) = BitVec.ofNat 32
      (if 8192 ≤ v.toNat then c - ((v.toNat - 8192) * c + 8191) / 8192
      else c + (8192 - v.toNat) * (470000 - c) / 8192) := by
  unfold storeInt
  split
  next hv => rw [bentB_toNat_of_le c hv]
  next hv => rw [bentB_toNat_of_lt hc (Nat.lt_of_not_le hv)]

theorem pitchBendEffect_of_none_held (table : Config.NoteTable) (v : BendValue) (s : State)
    (hnone : ∀ m : Note, s.notes.held m = false) : pitchBendEffect table v s = s := by
  rcases pitchBendEffect_cases table v s with ⟨-, he⟩ | ⟨hne, -⟩
  · exact he
  · rw [(isEmpty_iff_held _).mpr hnone] at hne
    exact absurd hne (by decide)

theorem pitchBendEffect_of_least (table : Config.NoteTable) (v : BendValue) (s : State) {m : Note}
    (hm : s.notes.held m = true) (hleast : ∀ k : Note, s.notes.held k = true → m.toNat ≤ k.toNat) :
    pitchBendEffect table v s =
      { s with pairB := storeInt (bentB (tableRead table m).b.val (bendOperand v)) } := by
  rcases pitchBendEffect_cases table v s with ⟨he, -⟩ | ⟨-, he⟩
  · rw [isEmpty_eq_false_of_held hm] at he
    exact absurd he (by decide)
  · rw [he, governingEntry_of_least hm hleast]

/-! ### DISPATCH (R120, R125) -/

/-- A step of the block with a due record is that record's operation, the cursor already one further. -/
theorem step_of_due {s : State} {r : EventRecord} (hmove : s.nextMove = some .engine) (hbusy : s.busy = true)
    (hsample : s.sampleIdx < s.blkLen) (hread : s.evbuf[s.eventIdx.toNat]? = some r)
    (hoffset : recordOffset r ≤ s.sampleIdx) :
    step s = exec (decodeEvent r) s.dropMove.advanceEvent := by
  have hdue : s.dropMove.dueEvent = some r := (dueEvent_eq_some _ r).mpr ⟨hread, hoffset⟩
  simp [step_eq, hmove, runMove, engineStep, hbusy, blockStep, hsample, hdue]

end Sys2Proof.Machine

/-! ### The event obligations (R121 to R124) -/

namespace Sys2Proof.Proofs
open Sys2Proof.Machine

/-- Settles O20: NOTE_ON is one update, and NS_SET changes one word of the note set. -/
theorem noteOnSetsNoteAndPair : Obligations.NoteOnSetsNoteAndPair := by
  intro n v c o
  refine ⟨?decode, fun s => ⟨noteOnEffect Config.noteTable n s, exec_noteOn s n v c o, ?effect⟩⟩
  case decode => rw [decodeEvent_threeByte, if_neg (by decide), if_pos rfl]
  case effect =>
    rw [noteOnEffect_eq]
    exact ⟨word_set s.notes n, entry_a_toNat _, entry_b_toNat _, rfl⟩

/-- Settles O21: what is left after NS_CLEAR is empty, and the pair is kept, or has a least held note, which
governs. -/
theorem noteOffClearsNoteAndRetunes : Obligations.NoteOffClearsNoteAndRetunes := by
  intro n v c o
  refine ⟨?decode, fun s => ⟨noteOffEffect Config.noteTable n s, exec_noteOff s n v c o, ?words, ?kept, ?retuned,
    noteOffEffect_frame Config.noteTable n s⟩⟩
  case decode => rw [decodeEvent_threeByte, if_pos rfl]
  all_goals rw [noteOffEffect_notes]
  case words => exact word_clear s.notes n
  case kept =>
    intro hnone
    rw [noteOffEffect_of_none_held _ n s hnone]
    exact ⟨rfl, rfl⟩
  case retuned =>
    intro m hm hleast
    rw [noteOffEffect_of_least _ n s hm hleast]
    exact ⟨entry_a_toNat _, entry_b_toNat _⟩

/-- Settles O22: with a least held note the centre is its table entry, and the stored value is R123's floor. -/
theorem pitchBendMovesPairB : Obligations.PitchBendMovesPairB := by
  intro v c o
  refine ⟨?decode, fun s hnone => ?unheld, fun s m hm hleast => ?bent⟩
  case decode =>
    rw [decodeEvent_threeByte, if_neg (by decide), if_neg (by decide), dataByte_toNat, bendValue_halves,
      if_pos ⟨rfl, BitVec.isLt _⟩]
  all_goals rw [exec_pitchBend]
  case unheld => rw [pitchBendEffect_of_none_held _ v s hnone]
  case bent =>
    rw [pitchBendEffect_of_least _ v s hm hleast, storeInt_bentB (Nat.le_of_lt_succ (Fin.isLt _)), tableRead]

/-- Settles O23: DISPATCH of the record is the step, and IGNORED leaves what DISPATCH hands it. -/
theorem ignoredRecordsChangeNothing : Obligations.IgnoredRecordsChangeNothing := by
  intro a b c d o hwf
  have hdecode := decodeEvent_ignored hwf
  refine ⟨hdecode, fun s => exec_ignored s a b c d o, fun s hmove hbusy hsample hread hdue => ?_⟩
  have hoffset : recordOffset (eventRecord a b c d o) ≤ s.sampleIdx := by
    rwa [recordOffset_eventRecord]
  calc step s
      = exec (decodeEvent (eventRecord a b c d o)) s.dropMove.advanceEvent :=
        step_of_due hmove hbusy hsample hread hoffset
    _ = .next s.dropMove.advanceEvent := by rw [hdecode, exec_ignored]

end Sys2Proof.Proofs

/-! ### The fields of a command word built from its fields (R71) -/

namespace Sys2Proof

section Command
variable (op : BitVec 8) (x : Word)

@[simp] theorem opOf_commandWord : opOf (commandWord op x) = op := by
  rw [opOf, extractLsb'_eq_iff, commandWord_toNat]; omega

@[simp] theorem operandOf_commandWord : operandOf (commandWord op x) = x := by
  rw [operandOf, extractLsb'_eq_iff, commandWord_toNat]; omega

end Command

theorem decodeCommand_setSampleRate (r : Word) : decodeCommand (0x05#8 ++ r) = .setSampleRate r := by
  change decodeCommand (commandWord 0x05#8 r) = _
  simp [decodeCommand]

end Sys2Proof

/-! ### SET_SAMPLE_RATE between blocks (R61, R140) -/

namespace Sys2Proof.Machine

@[simp] theorem mustHold_eq_false_iff (s : State) : s.mustHold = false ↔ s.busy = false ∧ s.held = [] := by
  simp [State.mustHold]

theorem exec_setSampleRate_of_not_mustHold {s : State} (h : s.mustHold = false) (r : Word) :
    exec (.setSampleRate r) s = .next (setSampleRateEffect r s) := by
  simp only [exec, execSetSampleRate, h, Bool.false_eq_true, if_false]

theorem rescale_eq_ofNat (run new old : Word) :
    rescale run new old =
      BitVec.ofNat 32 (min ((2 * (run.toNat * new.toNat) + old.toNat) / (2 * old.toNat)) (2 ^ 32 - 1)) := by
  rw [rescale, saturate, roundHalfUp, Config.u32Max]

end Sys2Proof.Machine

namespace Sys2Proof.Proofs
open Sys2Proof.Machine

/-- Settles O16: nothing holds the command back, and its effect is one of the three cases of R140. -/
theorem setSampleRateRescales : Obligations.SetSampleRateRescales := by
  refine fun r => ⟨decodeCommand_setSampleRate r, fun s hbusy hheld => ?effect⟩
  have isZero (w : Word) : w.toNat = 0 ↔ w = 0#32 := BitVec.toNat_inj (y := 0#32)
  rw [exec_setSampleRate_of_not_mustHold ((mustHold_eq_false_iff s).mpr ⟨hbusy, hheld⟩)]
  simp only [isZero, ← rescale_eq_ofNat]
  rcases setSampleRateEffect_cases r s with ⟨hr, ignored⟩ | ⟨hr, hzero, first⟩ | ⟨hr, hzero, rescaled⟩
  · rw [ignored, if_pos hr]
  · rw [first, if_neg hr, if_pos hzero]
  · rw [rescaled, if_neg hr, if_neg hzero]

end Sys2Proof.Proofs

/-! ### RENDER_SAMPLE in closed form (R150, R151) -/

namespace Sys2Proof.Machine

theorem saturate_eq_ofNat (v : Nat) : saturate v = BitVec.ofNat 32 (min v (2 ^ 32 - 1)) := rfl

/-- NS_EMPTY, word by word (R114). -/
theorem isEmpty_iff_four_words (ns : NoteSet) :
    ns.isEmpty = true ↔
      ns.word 0#2 = 0#32 ∧ ns.word 1#2 = 0#32 ∧ ns.word 2#2 = 0#32 ∧ ns.word 3#2 = 0#32 := by
  have hindex : ∀ j : BitVec 2, j = 0#2 ∨ j = 1#2 ∨ j = 2#2 ∨ j = 3#2 := by decide
  rw [isEmpty_iff_words]
  constructor
  · exact fun h => ⟨h _, h _, h _, h _⟩
  · rintro ⟨h0, h1, h2, h3⟩ j
    rcases hindex j with rfl | rfl | rfl | rfl <;> assumption

section SampleStep
variable (s : State)

/-- Step 2 re-triggers on the value the wrap left. -/
theorem sampleRetriggers_iff :
    sampleRetriggers s = true ↔
      s.timings.monostableHigh ≤ s.monostableRun.toNat ∧ wrappedAstable s = s.timings.astableHigh := by
  simp only [sampleRetriggers, retriggers, released, Bool.and_eq_true, decide_eq_true_eq]

theorem retriggeredMonostable_eq :
    retriggeredMonostable s =
      if s.timings.monostableHigh ≤ s.monostableRun.toNat ∧ wrappedAstable s = s.timings.astableHigh then 0
      else s.monostableRun.toNat := by
  simp only [retriggeredMonostable, sampleRetriggers_iff]

/-- Step 2 on the level: a released monostable leaves it high exactly at the astable boundary. -/
theorem sampleLevel_eq :
    sampleLevel s =
      if s.timings.monostableHigh ≤ s.monostableRun.toNat then
        decide (wrappedAstable s = s.timings.astableHigh)
      else s.outputLevel := by
  by_cases hreleased : s.timings.monostableHigh ≤ s.monostableRun.toNat <;>
    simp [sampleLevel, levelAfter, retriggers, released, hreleased]

/-- The mux on the words of the note set (R151). -/
theorem renderedSample_eq :
    renderedSample s =
      if s.notes.word 0#2 = 0#32 ∧ s.notes.word 1#2 = 0#32 ∧ s.notes.word 2#2 = 0#32
          ∧ s.notes.word 3#2 = 0#32 ∧ s.gestureActive = false then 0x00000000#32
      else if sampleLevel s = true then s.gain
      else s.gain ^^^ 0x80000000#32 := by
  simp only [renderedSample, mux, neg32, Bool.and_eq_true, Bool.not_eq_true', isEmpty_iff_four_words, and_assoc]

end SampleStep

/-- A step of the block with no due record is RENDER_SAMPLE (R125). -/
theorem step_of_no_due {s : State} (hmove : s.nextMove = some .engine) (hbusy : s.busy = true)
    (hsample : s.sampleIdx < s.blkLen) (hdue : s.dueEvent = none) :
    step s = .next (renderSample s.dropMove) := by
  simp [step_eq, hmove, runMove, engineStep, hbusy, blockStep, hsample, hdue]

end Sys2Proof.Machine

namespace Sys2Proof.Proofs
open Sys2Proof.Machine

/-- Settles O30: the step is RENDER_SAMPLE once its schedule entry is used up, and each field it writes is the
equation of R150 or R151 on the value the wrap left. -/
theorem renderStepFollowsR150 : Obligations.RenderStepFollowsR150 := by
  intro s ah al mh a1 m1 level hmove hbusy hsample hdue htimings ha1 hlevel hm1
  have htimings : s.dropMove.timings = ⟨ah, al, mh⟩ := htimings
  have hwrap : wrappedAstable s.dropMove = a1 := by
    rw [wrappedAstable, htimings, dropMove_astableRun, ha1]
  have hstep2 : sampleLevel s.dropMove = level := by
    rw [sampleLevel_eq, htimings, hwrap, dropMove_monostableRun, dropMove_outputLevel, hlevel]
  have hmono : retriggeredMonostable s.dropMove = m1 := by
    rw [retriggeredMonostable_eq, htimings, hwrap, dropMove_monostableRun, hm1]
  rw [step_of_no_due hmove hbusy hsample hdue, renderSample_eq, renderedSample_eq, hwrap, hmono, hstep2,
    saturate_eq_ofNat, saturate_eq_ofNat]
  rfl

end Sys2Proof.Proofs

/-! ### The command opcode map and the operands of the control writes (R72, R170 to R174) -/

namespace Sys2Proof

/-- R72 on the two fields of a word, in the decoder's order. -/
theorem decodeCommand_commandWord (op : BitVec 8) (x : Word) :
    decodeCommand (commandWord op x) =
      if op = 0x01#8 then .setPotA x
      else if op = 0x02#8 then .setPotB x
      else if op = 0x03#8 then .setGain x
      else if op = 0x04#8 then .setGesture x
      else if op = 0x05#8 then .setSampleRate x
      else if op = 0x06#8 then .renderBlock x
      else if op = 0x00#8 then .reserved00 x
      else if op = 0x07#8 then .reserved07 x
      else if op.getLsbD 7 then .reserved80 (op.extractLsb' 0 7) x
      else if op.getLsbD 6 then .reserved40 (op.extractLsb' 0 6) x
      else if op.getLsbD 5 then .reserved20 (op.extractLsb' 0 5) x
      else if op.getLsbD 4 then .reserved10 (op.extractLsb' 0 4) x
      else .reserved08 (op.extractLsb' 0 3) x := by
  rw [decodeCommand, opOf_commandWord, operandOf_commandWord]

section
variable (x : Word)

theorem decodeCommand_setPotA : decodeCommand (0x01#8 ++ x) = .setPotA x :=
  (decodeCommand_commandWord 0x01#8 x).trans (by simp)

theorem decodeCommand_setPotB : decodeCommand (0x02#8 ++ x) = .setPotB x :=
  (decodeCommand_commandWord 0x02#8 x).trans (by simp)

theorem decodeCommand_setGain : decodeCommand (0x03#8 ++ x) = .setGain x :=
  (decodeCommand_commandWord 0x03#8 x).trans (by simp)

theorem decodeCommand_setGesture : decodeCommand (0x04#8 ++ x) = .setGesture x :=
  (decodeCommand_commandWord 0x04#8 x).trans (by simp)

end

end Sys2Proof

namespace Sys2Proof.Machine

/-- R170: between the two bounds the signed reading of the operand is its unsigned one. -/
theorem potOperand_eq_ofNat (x : Word) :
    potOperand x = BitVec.ofNat 32
      (if x.toInt < 0 then 0 else if 470000 < x.toInt then 470000 else x.toNat) := by
  rw [potOperand, storeInt, clamp]
  by_cases hneg : x.toInt < 0
  · rw [if_pos hneg, if_pos hneg, Int.toNat_zero]
  · have hsigned : x.toInt.toNat = x.toNat := by
      have := BitVec.toInt_eq_toNat_cond x
      split at this <;> omega
    rw [if_neg hneg, if_neg hneg, apply_ite Int.toNat, hsigned]
    rfl

theorem gestureOperand_eq_decide (g : Word) : gestureOperand g = decide (g.toNat % 2 = 1) :=
  Nat.testBit_zero g.toNat

/-! ### ISSUE and APPLY of the control writes (R60, R170 to R175) -/

section Issue
variable (x : Word) (s : State)

theorem exec_setPotA : exec (.setPotA x) s = .next { s with pendA := s.pendA ++ [x] } := rfl

theorem exec_setPotB : exec (.setPotB x) s = .next { s with pendB := s.pendB ++ [x] } := rfl

theorem exec_setGain : exec (.setGain x) s = .next { s with pendGain := s.pendGain ++ [x] } := rfl

theorem exec_setGesture : exec (.setGesture x) s = .next { s with pendGesture := s.pendGesture ++ [x] } := rfl

end Issue

/-- A step of APPLY pops the head of its FIFO and takes its effect, once the schedule entry is used up. -/
theorem step_of_apply {s : State} {f : Fifo} {w : Word} {ws : List Word}
    (hmove : s.nextMove = some (.apply f)) (hpending : s.pending f = w :: ws) :
    step s = .next (applyWrite f w (s.dropMove.setPending f ws)) := by
  have hdropped : s.dropMove.pending f = w :: ws := (dropMove_pending s f).trans hpending
  rw [step_eq, hmove, runMove, applyHead_cons _ f w ws hdropped]

section Apply
variable (w : Word) (s : State)

theorem applyWrite_potA : applyWrite .potA w s = s.setPairA (potOperand w) := rfl

theorem applyWrite_potB : applyWrite .potB w s = s.setPairB (potOperand w) := rfl

theorem applyWrite_gain : applyWrite .gain w s = s.setGainReg (gainOperand w) := rfl

theorem applyWrite_gesture : applyWrite .gesture w s = s.setGestureReg (gestureOperand w) := rfl

end Apply

/-! ### The reserved commands (R79, R174) -/

section Reserved
variable (x : Word) (s : State)

theorem exec_reserved00 : exec (.reserved00 x) s = .next s := rfl

theorem exec_reserved07 : exec (.reserved07 x) s = .next s := rfl

theorem exec_reserved08 (low : BitVec 3) : exec (.reserved08 low x) s = .next s := rfl

theorem exec_reserved10 (low : BitVec 4) : exec (.reserved10 low x) s = .next s := rfl

theorem exec_reserved20 (low : BitVec 5) : exec (.reserved20 low x) s = .next s := rfl

theorem exec_reserved40 (low : BitVec 6) : exec (.reserved40 low x) s = .next s := rfl

theorem exec_reserved80 (low : BitVec 7) : exec (.reserved80 low x) s = .next s := rfl

/-- R79: an opcode with no row of its own passes the six rows with a meaning, and each of the seven that are left
is a reserved one. -/
theorem exec_decodeCommand_of_reserved {op : BitVec 8} (hop : op.toNat = 0 ∨ 7 ≤ op.toNat) :
    exec (decodeCommand (commandWord op x)) s = .next s := by
  have unlisted {k : BitVec 8} (hk : 0 < k.toNat ∧ k.toNat < 7) : op ≠ k := by
    rintro rfl
    omega
  rw [decodeCommand_commandWord]
  iterate 6 rw [if_neg (unlisted (by decide))]
  repeat' split
  · exact exec_reserved00 x s
  · exact exec_reserved07 x s
  · exact exec_reserved80 x s _
  · exact exec_reserved40 x s _
  · exact exec_reserved20 x s _
  · exact exec_reserved10 x s _
  · exact exec_reserved08 x s _

end Reserved

end Sys2Proof.Machine

/-! ### The control obligations (R170 to R174) -/

namespace Sys2Proof.Proofs
open Sys2Proof.Machine

/-- Settles O9: the step is APPLY of `pend_a`, and the clamp on the operand's signed value is the one stored. -/
theorem setPotAIssuedThenApplied : Obligations.SetPotAIssuedThenApplied := by
  refine fun x => ⟨decodeCommand_setPotA x, exec_setPotA x, fun s rest hmove hpending => ?_⟩
  rw [step_of_apply hmove hpending, applyWrite_potA, potOperand_eq_ofNat]
  rfl

/-- Settles O10: as O9, on `pend_b`. -/
theorem setPotBIssuedThenApplied : Obligations.SetPotBIssuedThenApplied := by
  refine fun x => ⟨decodeCommand_setPotB x, exec_setPotB x, fun s rest hmove hpending => ?_⟩
  rw [step_of_apply hmove hpending, applyWrite_potB, potOperand_eq_ofNat]
  rfl

/-- Settles O11: the step is APPLY of `pend_gain`, and the binary32 clamp is the one on the word's value. -/
theorem setGainIssuedThenApplied : Obligations.SetGainIssuedThenApplied := by
  refine fun u => ⟨decodeCommand_setGain u, exec_setGain u, fun s rest hmove hpending => ?_⟩
  rw [step_of_apply hmove hpending, applyWrite_gain, gainOperand_spec]
  rfl

/-- Settles O12: the step is APPLY of `pend_gesture`, and bit 0 is the operand's parity. -/
theorem setGestureIssuedThenApplied : Obligations.SetGestureIssuedThenApplied := by
  refine fun g => ⟨decodeCommand_setGesture g, exec_setGesture g, fun s rest hmove hpending => ?_⟩
  rw [step_of_apply hmove hpending, applyWrite_gesture, gestureOperand_eq_decide]
  rfl

/-- Settles O13: an unlisted opcode decodes to a reserved form, and every form's meaning is to change nothing. -/
theorem reservedCommandsChangeNothing : Obligations.ReservedCommandsChangeNothing :=
  ⟨fun _ x s hop => exec_decodeCommand_of_reserved x s hop,
    fun x s => ⟨exec_reserved00 x s, exec_reserved07 x s⟩,
    fun low x s => exec_reserved08 x s low, fun low x s => exec_reserved10 x s low,
    fun low x s => exec_reserved20 x s low, fun low x s => exec_reserved40 x s low,
    fun low x s => exec_reserved80 x s low⟩

end Sys2Proof.Proofs

/-! ### RESET (R220, R221) -/

namespace Sys2Proof.Machine

theorem exec_reset_of_idle {s : State} (hidle : s.busy = false) : exec .reset s = .next s.resetEngine := by
  simp only [exec, execReset, hidle, Bool.false_eq_true, if_false]

theorem exec_reset_of_busy {s : State} (hbusy : s.busy = true) : exec .reset s = .refused .resetWhileBusy := by
  simp only [exec, execReset, hbusy, if_true]

/-- A parameter of R6 whose range fits a u32 is its own register content. -/
theorem ofNat32_toNat_of_range {n : Nat} (hn : n ≤ 2 ^ 32) (v : Fin n) : (BitVec.ofNat 32 v.val).toNat = v.val :=
  ofNat32_toNat _ (v.isLt.trans_le hn)

theorem reset_pairA_toNat : State.reset.pairA.toNat = Config.defaultA.val :=
  ofNat32_toNat_of_range (by decide) Config.defaultA

theorem reset_pairB_toNat : State.reset.pairB.toNat = Config.defaultB.val :=
  ofNat32_toNat_of_range (by decide) Config.defaultB

theorem reset_gain_toNat : State.reset.gain.toNat = Config.defaultGain.val :=
  ofNat32_toNat_of_range (by decide) Config.defaultGain

/-- The timings are no registers (R30): they are 0 because RESET leaves the sample rate 0 (R104, R220). -/
theorem resetEngine_timings (s : State) : s.resetEngine.timings = ⟨0, 0, 0⟩ :=
  retune_zero_rate State.reset.pairA.toNat State.reset.pairB.toNat

end Sys2Proof.Machine

namespace Sys2Proof.Proofs
open Sys2Proof.Machine

/-- Settles O42: idle, the answer is the state of `resetEngine`. Its pair and gain are the parameters of R6, which
fit their registers, its note set is the empty one, and its other registers are 0. -/
theorem resetSetsEveryElement : Obligations.ResetSetsEveryElement := fun s hidle =>
  ⟨s.resetEngine, exec_reset_of_idle hidle, reset_pairA_toNat, reset_pairB_toNat, rfl, rfl, rfl, rfl,
    empty_word, reset_gain_toNat, rfl, rfl, rfl, rfl, rfl, rfl, resetEngine_timings s⟩

/-- Settles O44: the meaning of RESET tests `busy` before it writes anything. -/
theorem resetDuringABlockIsRefused : Obligations.ResetDuringABlockIsRefused := fun _ =>
  exec_reset_of_busy

end Sys2Proof.Proofs

/-! ### Serialised words read back (R54) -/

namespace Sys2Proof

theorem getElem?_bytesOfNat (n w j : Nat) (hj : j < n) :
    (bytesOfNat n w)[j]? = some (BitVec.ofNat 8 (w / 256 ^ j)) := by
  induction n generalizing w j with
  | zero => omega
  | succ n ih =>
    cases j with
    | zero => simp [bytesOfNat]
    | succ j =>
      rw [bytesOfNat, List.getElem?_cons_succ, ih _ _ (by omega), Nat.div_div_eq_div_mul, ← Nat.pow_succ']

theorem natOfBytes_bytesOfNat (n w : Nat) : natOfBytes (bytesOfNat n w) = w % 256 ^ n := by
  induction n generalizing w with
  | zero => simp [bytesOfNat, natOfBytes, Nat.mod_one]
  | succ n ih =>
    rw [bytesOfNat, natOfBytes, ih, BitVec.toNat_ofNat, Nat.pow_succ' (n := n), Nat.mod_mul]

/-- Bytes are the digits of their number to base 256, so writing the number out gives them back. -/
theorem bytesOfNat_natOfBytes (bytes : List Byte) : bytesOfNat bytes.length (natOfBytes bytes) = bytes := by
  induction bytes with
  | nil => rfl
  | cons b bs ih =>
    have hlow : BitVec.ofNat 8 (b.toNat + 256 * natOfBytes bs) = b := by
      apply BitVec.eq_of_toNat_eq
      rw [BitVec.toNat_ofNat]; omega
    have hhigh : (b.toNat + 256 * natOfBytes bs) / 256 = natOfBytes bs := by omega
    rw [List.length_cons, natOfBytes, bytesOfNat, hlow, hhigh, ih]

theorem natOfBytes_lt (bytes : List Byte) : natOfBytes bytes < 256 ^ bytes.length := by
  have h := natOfBytes_bytesOfNat bytes.length (natOfBytes bytes)
  rw [bytesOfNat_natOfBytes] at h
  rw [h]
  exact Nat.mod_lt _ (by positivity)


/-! ### The command word and its operation (R71, R72, R79) -/

theorem getLsbD_eq_decide_le {m k : Nat} {x : BitVec m} (h : x.toNat < 2 ^ (k + 1)) :
    x.getLsbD k = decide (2 ^ k ≤ x.toNat) := by
  have hpos : 0 < 2 ^ k := by positivity
  have hlt : x.toNat / 2 ^ k < 2 := by rwa [Nat.div_lt_iff_lt_mul hpos, ← Nat.pow_succ']
  have hge : 1 ≤ x.toNat / 2 ^ k ↔ 2 ^ k ≤ x.toNat := by rw [Nat.le_div_iff_mul_le hpos, Nat.one_mul]
  rw [← BitVec.testBit_toNat, Nat.testBit_eq_decide_div_mod_eq, decide_eq_decide, ← hge]
  generalize x.toNat / 2 ^ k = q at hlt
  omega

/-- R79: past the eight listed opcodes the row is the leading bit of the opcode, its field the bits below. -/
theorem decodeCommand_of_eight_le {op : BitVec 8} (hop : 8 ≤ op.toNat) (x : Word) :
    decodeCommand (commandWord op x) =
      if 128 ≤ op.toNat then .reserved80 (BitVec.ofNat 7 op.toNat) x
      else if 64 ≤ op.toNat then .reserved40 (BitVec.ofNat 6 op.toNat) x
      else if 32 ≤ op.toNat then .reserved20 (BitVec.ofNat 5 op.toNat) x
      else if 16 ≤ op.toNat then .reserved10 (BitVec.ofNat 4 op.toNat) x
      else .reserved08 (BitVec.ofNat 3 op.toNat) x := by
  have unlisted {k : BitVec 8} (hk : k.toNat < 8) : op ≠ k := by
    rintro rfl
    omega
  rw [decodeCommand_commandWord]
  iterate 8 rw [if_neg (unlisted (by decide))]
  have row {k : Nat} (hk : op.toNat < 2 ^ (k + 1)) : op.getLsbD k = true ↔ 2 ^ k ≤ op.toNat := by
    rw [getLsbD_eq_decide_le hk, decide_eq_true_eq]
  refine if_ctx_congr (row op.isLt) (fun _ => rfl) fun h7 => ?_
  refine if_ctx_congr (row (by omega)) (fun _ => rfl) fun h6 => ?_
  refine if_ctx_congr (row (by omega)) (fun _ => rfl) fun h5 => ?_
  exact if_ctx_congr (row (by omega)) (fun _ => rfl) fun _ => rfl

/-- An opcode from its leading bits and the field below them. -/
theorem ofNat_append_toNat {m n : Nat} (lead : BitVec m) (low : BitVec n) :
    BitVec.ofNat n (lead ++ low).toNat = low := by
  apply BitVec.eq_of_toNat_eq
  rw [BitVec.toNat_ofNat, toNat_append_eq, Nat.mul_add_mod, Nat.mod_eq_of_lt low.isLt]

/-- A command operation is what the word of its encoding decodes to. -/
theorem decodeCommand_of_encodeNat {i : Instr} {w : CommandWord} (hformat : i.format = .cmd40)
    (hw : w.toNat = encodeNat i) : decodeCommand w = i := by
  have word {op : BitVec 8} {x : Word} (h : w.toNat = (commandWord op x).toNat) : w = commandWord op x :=
    BitVec.eq_of_toNat_eq h
  cases i with
  | setPotA x => rw [word hw]; exact decodeCommand_setPotA x
  | setPotB x => rw [word hw]; exact decodeCommand_setPotB x
  | setGain x => rw [word hw]; exact decodeCommand_setGain x
  | setGesture x => rw [word hw]; exact decodeCommand_setGesture x
  | setSampleRate x => rw [word hw]; exact decodeCommand_setSampleRate x
  | renderBlock x => rw [word hw, decodeCommand_commandWord]; rfl
  | reserved00 x => rw [word hw, decodeCommand_commandWord]; rfl
  | reserved07 x => rw [word hw, decodeCommand_commandWord]; rfl
  | reserved08 low x =>
    have hop : (0b00001#5 ++ low : BitVec 8).toNat = 8 + low.toNat := toNat_append_eq _ low
    rw [word hw, decodeCommand_of_eight_le (by omega), ofNat_append_toNat]
    iterate 4 rw [if_neg (by omega)]
  | reserved10 low x =>
    have hop : (0b0001#4 ++ low : BitVec 8).toNat = 16 + low.toNat := toNat_append_eq _ low
    rw [word hw, decodeCommand_of_eight_le (by omega), ofNat_append_toNat]
    iterate 3 rw [if_neg (by omega)]
    rw [if_pos (by omega)]
  | reserved20 low x =>
    have hop : (0b001#3 ++ low : BitVec 8).toNat = 32 + low.toNat := toNat_append_eq _ low
    rw [word hw, decodeCommand_of_eight_le (by omega), ofNat_append_toNat]
    iterate 2 rw [if_neg (by omega)]
    rw [if_pos (by omega)]
  | reserved40 low x =>
    have hop : (0b01#2 ++ low : BitVec 8).toNat = 64 + low.toNat := toNat_append_eq _ low
    rw [word hw, decodeCommand_of_eight_le (by omega), ofNat_append_toNat, if_neg (by omega),
      if_pos (by omega)]
  | reserved80 low x =>
    have hop : (0b1#1 ++ low : BitVec 8).toNat = 128 + low.toNat := toNat_append_eq _ low
    rw [word hw, decodeCommand_of_eight_le (by omega), ofNat_append_toNat, if_pos (by omega)]
  | noteOff | noteOn | pitchBend | ignored | reset => cases hformat

theorem commandWord_opOf_operandOf (w : CommandWord) : commandWord (opOf w) (operandOf w) = w := by
  apply BitVec.eq_of_toNat_eq
  rw [commandWord_toNat, opOf, operandOf, BitVec.extractLsb'_toNat, BitVec.extractLsb'_toNat,
    Nat.shiftRight_eq_div_pow]
  omega


/-- The fields of a command's operation make up its word again. -/
theorem decodeCommand_wellFormed_encodes (w : CommandWord) :
    (decodeCommand w).format = .cmd40 ∧ (decodeCommand w).wellFormed = true ∧
      encodeNat (decodeCommand w) = w.toNat := by
  obtain ⟨op, x, rfl⟩ : ∃ op x, w = commandWord op x := ⟨_, _, (commandWord_opOf_operandOf w).symm⟩
  have row {op' : BitVec 8} (h : op'.toNat = op.toNat) : (commandWord op' x).toNat = (commandWord op x).toNat := by
    rw [BitVec.eq_of_toNat_eq h]
  by_cases hop : 8 ≤ op.toNat
  case pos =>
    rw [decodeCommand_of_eight_le hop]
    repeat' split
    all_goals exact ⟨rfl, rfl, row (by rw [toNat_append_eq, BitVec.toNat_ofNat]; simp; omega)⟩
  case neg =>
    obtain rfl | rfl | rfl | rfl | rfl | rfl | rfl | rfl :
        op = 0#8 ∨ op = 1#8 ∨ op = 2#8 ∨ op = 3#8 ∨ op = 4#8 ∨ op = 5#8 ∨ op = 6#8 ∨ op = 7#8 := by
      simp only [← BitVec.toNat_inj, BitVec.reduceToNat]
      omega
    all_goals
      rw [decodeCommand_commandWord]
      exact ⟨rfl, rfl, rfl⟩


/-! ### The event record and its operation (R74 to R78) -/

theorem dataByte_of_lt {b : Byte} (h : b.toNat < 128) : (0#1 ++ BitVec.ofNat 7 b.toNat : Byte) = b := by
  apply BitVec.eq_of_toNat_eq
  rw [dataByte_toNat, BitVec.toNat_ofNat]; omega

theorem statusByte_of_nibble {b : Byte} {nibble : BitVec 4} (h : b.toNat / 16 = nibble.toNat) :
    (nibble ++ BitVec.ofNat 4 b.toNat : Byte) = b := by
  apply BitVec.eq_of_toNat_eq
  rw [statusByte_toNat, BitVec.toNat_ofNat]; omega

theorem extractLsb'_bendValue_high (d2 d1 : Byte) (h : d1.toNat < 128) :
    (BitVec.ofNat 14 (d2.toNat * 128 + d1.toNat)).extractLsb' 7 7 = BitVec.ofNat 7 d2.toNat := by
  rw [extractLsb'_eq_iff, BitVec.toNat_ofNat, BitVec.toNat_ofNat]; omega

theorem extractLsb'_bendValue_low (d2 d1 : Byte) :
    (BitVec.ofNat 14 (d2.toNat * 128 + d1.toNat)).extractLsb' 0 7 = BitVec.ofNat 7 d1.toNat := by
  rw [extractLsb'_eq_iff, BitVec.toNat_ofNat, BitVec.toNat_ofNat]; omega

/-- A well-formed event operation is what the record of its encoding decodes to. -/
theorem decodeEvent_of_encodeNat {i : Instr} {r : EventRecord} (hwf : i.wellFormed = true)
    (hformat : i.format = .evt64) (hr : r.toNat = encodeNat i) : decodeEvent r = i := by
  have record {nb d2 d1 st : Byte} {o : Word} (h : r.toNat = (eventRecord nb d2 d1 st o).toNat) :
      r = nb ++ d2 ++ d1 ++ st ++ o := BitVec.eq_of_toNat_eq h
  cases i with
  | noteOff n v c o => rw [record hr, decodeEvent_threeByte, if_pos rfl]
  | noteOn n v c o => rw [record hr, decodeEvent_threeByte, if_neg (by decide), if_pos rfl]
  | pitchBend v c o =>
    rw [record hr, decodeEvent_threeByte, if_neg (by decide), if_neg (by decide), dataByte_toNat,
      bendValue_halves, if_pos ⟨rfl, BitVec.isLt _⟩]
  | ignored nb d2 d1 st o => rw [record hr]; exact decodeEvent_ignored hwf
  | setPotA | setPotB | setGain | setGesture | setSampleRate | renderBlock | reserved00 | reserved07
  | reserved08 | reserved10 | reserved20 | reserved40 | reserved80 | reset => cases hformat

theorem eventRecord_fields (r : EventRecord) :
    eventRecord (recordNbytes r) (recordData2 r) (recordData1 r) (recordStatus r) (recordOffset r) = r := by
  apply BitVec.eq_of_toNat_eq
  simp only [eventRecord_toNat, recordNbytes, recordData2, recordData1, recordStatus, recordOffset,
    BitVec.extractLsb'_toNat, Nat.shiftRight_eq_div_pow]
  omega

/-- The fields of a record's operation make up the record again: a row of R76 fixes every bit that its operation
does not hold. -/
theorem decodeEvent_wellFormed_encodes (r : EventRecord) :
    (decodeEvent r).format = .evt64 ∧ (decodeEvent r).wellFormed = true ∧
      encodeNat (decodeEvent r) = r.toNat := by
  obtain ⟨nb, d2, d1, st, o, rfl⟩ : ∃ nb d2 d1 st o, r = eventRecord nb d2 d1 st o :=
    ⟨_, _, _, _, _, (eventRecord_fields r).symm⟩
  rw [decodeEvent_eventRecord]
  have full {b : Byte} (h : b.toNat = 3) : b = 0x03#8 := BitVec.eq_of_toNat_eq h
  split
  next h =>
    obtain ⟨hnb, hst, h1⟩ := (matchesNoteOff_iff nb d1 st).mp h
    refine ⟨rfl, rfl, ?_⟩
    simp only [encodeNat, extractLsb'_zero_eq_ofNat]
    rw [full hnb, dataByte_of_lt h1, statusByte_of_nibble hst]
  split
  next h =>
    obtain ⟨hnb, hst, h1⟩ := (matchesNoteOn_iff nb d1 st).mp h
    refine ⟨rfl, rfl, ?_⟩
    simp only [encodeNat, extractLsb'_zero_eq_ofNat]
    rw [full hnb, dataByte_of_lt h1, statusByte_of_nibble hst]
  split
  next h =>
    obtain ⟨hnb, hst, h1, h2⟩ := (matchesPitchBend_iff nb d2 d1 st).mp h
    refine ⟨rfl, rfl, ?_⟩
    rw [bendValueOf_eq_ofNat d2 h1, encodeNat, extractLsb'_bendValue_high d2 d1 h1, extractLsb'_bendValue_low,
      full hnb, dataByte_of_lt h1, dataByte_of_lt h2, extractLsb'_zero_eq_ofNat, statusByte_of_nibble hst]
  next hoff hon hbend =>
    exact ⟨rfl, by simp [Instr.wellFormed, hoff, hon, hbend], rfl⟩

/-! ### Serialised words of each format -/

/-- Every operation's word fits its format. -/
theorem encodeNat_lt (i : Instr) : encodeNat i < 256 ^ i.format.bytes := by
  cases i with
  | reset => decide
  | _ => exact BitVec.isLt _

theorem encode_length (i : Instr) : (encode i).length = i.format.bytes := bytesOfNat_length _ _

theorem natOfBytes_encode (i : Instr) : natOfBytes (encode i) = encodeNat i := by
  rw [encode, natOfBytes_bytesOfNat, Nat.mod_eq_of_lt (encodeNat_lt i)]

theorem encode_eq_of_natOfBytes {i : Instr} {bytes : List Byte} (hlength : bytes.length = i.format.bytes)
    (h : encodeNat i = natOfBytes bytes) : encode i = bytes := by
  rw [encode, h, ← hlength, bytesOfNat_natOfBytes]

theorem toNat_ofNat_natOfBytes {n : Nat} {bytes : List Byte} (h : 2 ^ n = 256 ^ bytes.length) :
    (BitVec.ofNat n (natOfBytes bytes)).toNat = natOfBytes bytes := by
  rw [BitVec.toNat_ofNat, h, Nat.mod_eq_of_lt (natOfBytes_lt bytes)]

theorem decodeBytes_resetPin {bytes : List Byte} {i : Instr} (h : bytes.length = Format.resetPin.bytes) :
    decodeBytes .resetPin bytes = .ok i ↔ i = .reset ∧ natOfBytes bytes = 1 := by
  rw [decodeBytes, if_pos h]
  by_cases hone : natOfBytes bytes = 1
  · simp [hone, eq_comm]
  · by_cases hzero : natOfBytes bytes = 0 <;> simp [hone, hzero]

theorem decodeBytes_length {f : Format} {bytes : List Byte} {i : Instr} (h : decodeBytes f bytes = .ok i) :
    bytes.length = f.bytes := by
  by_contra hne
  rw [decodeBytes_wrongSize hne] at h
  cases h

end Sys2Proof

namespace Sys2Proof.Proofs

/-- Settles O6: byte by byte, and digit by digit to base 256. -/
theorem serialisedLittleEndian : Obligations.SerialisedLittleEndian := fun n w =>
  ⟨bytesOfNat_length n w, fun j hj => getElem?_bytesOfNat n w j hj, natOfBytes_bytesOfNat n w⟩

/-- Settles O1: the bytes read back as the operation's word, and each format's decoder inverts that word. -/
theorem decodeInvertsEncode : Obligations.DecodeInvertsEncode := by
  intro i hwf
  have hlength := encode_length i
  have hword := natOfBytes_encode i
  cases hf : i.format with
  | cmd40 =>
    rw [hf] at hlength
    rw [decodeBytes_cmd40 hlength,
      decodeCommand_of_encodeNat hf ((toNat_ofNat_natOfBytes (by rw [hlength]; rfl)).trans hword)]
  | evt64 =>
    rw [hf] at hlength
    rw [decodeBytes_evt64 hlength,
      decodeEvent_of_encodeNat hwf hf ((toNat_ofNat_natOfBytes (by rw [hlength]; rfl)).trans hword)]
  | resetPin =>
    cases i with
    | reset => exact (decodeBytes_resetPin hlength).mpr ⟨rfl, hword⟩
    | _ => cases hf

/-- Settles O2: the fields of what a word decodes to make up the word again, and its bytes are its digits. -/
theorem encodeInvertsDecode : Obligations.EncodeInvertsDecode := by
  intro f bytes i h
  have hlength := decodeBytes_length h
  cases f with
  | cmd40 =>
    rw [decodeBytes_cmd40 hlength] at h
    cases h
    obtain ⟨hf, hwf, hword⟩ := decodeCommand_wellFormed_encodes (BitVec.ofNat 40 (natOfBytes bytes))
    rw [toNat_ofNat_natOfBytes (by rw [hlength]; rfl)] at hword
    exact ⟨hf, hwf, encode_eq_of_natOfBytes (by rw [hlength, hf]) hword⟩
  | evt64 =>
    rw [decodeBytes_evt64 hlength] at h
    cases h
    obtain ⟨hf, hwf, hword⟩ := decodeEvent_wellFormed_encodes (BitVec.ofNat 64 (natOfBytes bytes))
    rw [toNat_ofNat_natOfBytes (by rw [hlength]; rfl)] at hword
    exact ⟨hf, hwf, encode_eq_of_natOfBytes (by rw [hlength, hf]) hword⟩
  | resetPin =>
    obtain ⟨rfl, hone⟩ := (decodeBytes_resetPin hlength).mp h
    exact ⟨rfl, rfl, encode_eq_of_natOfBytes hlength hone.symm⟩

/-- Settles O4: the decoder is run on each word. -/
theorem specWordsDecode : Obligations.SpecWordsDecode := by
  refine ⟨?_, ?_, ?_, ?_, ?_, ?_, ?_, ?_, ?_, ?_, ?_, ?_⟩ <;> decide

end Sys2Proof.Proofs

/-! ### The kinds of step, with what each writes (R59) -/

namespace Sys2Proof.Machine
open Sys2Proof.Safety

/-- The state on which a rate change or START acts: the command has left the port, or the held list (R61). -/
def AfterCommand (s u : State) : Prop := u = s.dropMove.dropArrival ∨ u = s.dropMove.dropHeld

/-- What an event may make of a pot: the value it had, or one in range (R121 to R123). -/
def PotFromEvent (old new : Word) : Prop := new = old ∨ new.toNat ≤ Config.potMax

/-- What a step that is taken from `s` can be, and the state it leads to. -/
inductive StepKind (s : State) : State → Prop where
  | wait (hmove : s.nextMove = none) : StepKind s s.dropMove
  | apply {f : Fifo} {w : Word} {ws : List Word} (hmove : s.nextMove = some (.apply f))
      (hpending : s.pending f = w :: ws) : StepKind s (applyWrite f w (s.dropMove.setPending f ws))
  | issue {f : Fifo} {w : Word} (hmove : s.nextMove = some .take) : StepKind s (s.dropMove.dropArrival.issue f w)
  | noEffect (hmove : s.nextMove = some .take) : StepKind s s.dropMove.dropArrival
  | hold {c : HeldCommand} (hmove : s.nextMove = some .take) : StepKind s (s.dropMove.dropArrival.hold c)
  | rate {u : State} {r a m : Word} (hrate : ChangesRate s) (hu : AfterCommand s u) :
      StepKind s ((u.setCounters a m).setRateReg r)
  | start {u : State} {l : Word} {es : List EventRecord} (hstart : StartsBlock s) (hu : AfterCommand s u)
      (hlength : es.length < 2 ^ 32) : StepKind s (u.beginBlock l es)
  | reset (hreset : TakesReset s) (hidle : s.busy = false) : StepKind s s.dropMove.dropArrival.resetEngine
  | note {ns : NoteSet} {a b : Word} (hnote : DispatchesNote s) (ha : PotFromEvent s.pairA a)
      (hb : PotFromEvent s.pairB b) : StepKind s ((s.dropMove.advanceEvent.setNotes ns).setPair a b)
  | bend {b : Word} (hbend : DispatchesBend s) (hb : PotFromEvent s.pairB b) :
      StepKind s (s.dropMove.advanceEvent.setPairB b)
  | ignored {i : Instr} (hdispatch : Dispatches s i) : StepKind s s.dropMove.advanceEvent
  | sample {a m : Word} {level : Bool} (hsample : RendersSample s) :
      StepKind s ((((s.dropMove.setCounters a m).setLevel level).outWrite
        (renderedSample s.dropMove)).advanceSample)
  | finish (hend : EndsBlock s) : StepKind s s.dropMove.endBlock

/-! #### Effects as kinds of step -/

theorem setSampleRateEffect_eq (r : Word) (u : State) :
    ∃ a m r', setSampleRateEffect r u = (u.setCounters a m).setRateReg r' := by
  rcases setSampleRateEffect_cases r u with ⟨-, he⟩ | ⟨-, -, he⟩ | ⟨-, -, he⟩
  · exact ⟨u.astableRun, u.monostableRun, u.sampleRate, he⟩
  · exact ⟨u.astableRun, u.monostableRun, r, he⟩
  · exact ⟨rescale u.astableRun r u.sampleRate, rescale u.monostableRun r u.sampleRate, r, he⟩

theorem stepKind_rate {s u : State} (hrate : ChangesRate s) (hu : AfterCommand s u) (r : Word) :
    StepKind s (setSampleRateEffect r u) := by
  obtain ⟨a, m, r', he⟩ := setSampleRateEffect_eq r u
  rw [he]
  exact .rate hrate hu

theorem potFromEvent_entry_a (old : Word) (e : Config.NoteEntry) : PotFromEvent old (BitVec.ofNat 32 e.a.val) :=
  .inr ((entry_a_toNat e).trans_le (Nat.le_of_lt_succ e.a.isLt))

theorem potFromEvent_entry_b (old : Word) (e : Config.NoteEntry) : PotFromEvent old (BitVec.ofNat 32 e.b.val) :=
  .inr ((entry_b_toNat e).trans_le (Nat.le_of_lt_succ e.b.isLt))

theorem potFromEvent_bentB (old : Word) (e : Config.NoteEntry) (v : BendValue) :
    PotFromEvent old (storeInt (bentB e.b.val (bendOperand v))) := by
  obtain ⟨-, hle⟩ := bentB_bounds e.b.val v (Nat.le_of_lt_succ e.b.isLt)
  have hle' : (bentB e.b.val (bendOperand v)).toNat ≤ Config.potMax := Int.toNat_le.mpr hle
  exact .inr ((storeInt_toNat _ (hle'.trans_lt (by decide))).trans_le hle')

theorem stepKind_noteOn {s : State} (h : DispatchesNote s) (n : Note) :
    StepKind s (noteOnEffect Config.noteTable n s.dropMove.advanceEvent) :=
  .note h (potFromEvent_entry_a _ _) (potFromEvent_entry_b _ _)

theorem stepKind_noteOff {s : State} (h : DispatchesNote s) (n : Note) :
    StepKind s (noteOffEffect Config.noteTable n s.dropMove.advanceEvent) := by
  rcases noteOffEffect_cases Config.noteTable n s.dropMove.advanceEvent with ⟨-, he⟩ | ⟨-, he⟩ <;> rw [he]
  · exact .note (ns := s.notes.clear n) h (.inl rfl) (.inl rfl)
  · exact .note (ns := s.notes.clear n) h (potFromEvent_entry_a _ (governingEntry _ _))
      (potFromEvent_entry_b _ (governingEntry _ _))

theorem stepKind_pitchBend {s : State} (h : DispatchesBend s) (v : BendValue) :
    StepKind s (pitchBendEffect Config.noteTable v s.dropMove.advanceEvent) := by
  rcases pitchBendEffect_cases Config.noteTable v s.dropMove.advanceEvent with ⟨-, he⟩ | ⟨-, he⟩ <;> rw [he]
  · exact .bend (b := s.pairB) h (.inl rfl)
  · exact .bend h (potFromEvent_bentB _ (governingEntry _ _) v)

/-! #### The inversion -/

/-- An arrival that decodes is a command word of a command operation, or the reset input. -/
theorem decodeArrival_ok {a : Arrival} {i : Instr} (h : decodeArrival a = .ok i) :
    (∃ bytes, a = .command bytes ∧ decodeBytes .cmd40 bytes = .ok i ∧ i.format = .cmd40) ∨
      (a = .reset ∧ i = .reset) := by
  cases a with
  | command bytes =>
    obtain ⟨hformat, -, -⟩ := Proofs.encodeInvertsDecode .cmd40 bytes i h
    exact .inl ⟨bytes, rfl, h, hformat⟩
  | reset => cases h; exact .inr ⟨rfl, rfl⟩

theorem stepKind_of_command {s t : State} {i : Instr} (hcommand : TakesCommand s i) (hformat : i.format = .cmd40)
    (h : exec i s.dropMove.dropArrival = .next t) : StepKind s t := by
  have hmove := hcommand.1
  rcases exec_next_cases i _ t h with ⟨f, w, rfl⟩ | rfl | ⟨c, -, rfl⟩ | ⟨r, rfl, hhold, rfl⟩ |
      ⟨l, rfl, hhold, hlength, rfl⟩ | ⟨n, v, c, o, rfl, -⟩ | ⟨n, v, c, o, rfl, -⟩ | ⟨v, c, o, rfl, -⟩ |
      ⟨rfl, -, -⟩
  · exact .issue hmove
  · exact .noEffect hmove
  · exact .hold hmove
  · obtain ⟨hidle, -⟩ : s.busy = false ∧ _ := (mustHold_eq_false_iff _).mp hhold
    exact stepKind_rate ⟨hidle, r, .inl hcommand⟩ (.inl rfl) r
  · obtain ⟨hidle, -⟩ : s.busy = false ∧ _ := (mustHold_eq_false_iff _).mp hhold
    exact .start ⟨hidle, l, .inl hcommand⟩ (.inl rfl) hlength
  all_goals cases hformat

theorem stepKind_of_reset {s t : State} (hreset : TakesReset s)
    (h : exec .reset s.dropMove.dropArrival = .next t) : StepKind s t := by
  cases hbusy : s.busy
  · rw [exec_reset_of_idle (s := s.dropMove.dropArrival) hbusy] at h
    cases h
    exact .reset hreset hbusy
  · rw [exec_reset_of_busy (s := s.dropMove.dropArrival) hbusy] at h
    cases h

theorem stepKind_of_record {s t : State} {r : EventRecord} (hdispatch : Dispatches s (decodeEvent r))
    (h : exec (decodeEvent r) s.dropMove.advanceEvent = .next t) : StepKind s t := by
  rcases exec_decodeEvent r s.dropMove.advanceEvent with ⟨n, v, c, o, hi, he⟩ | ⟨n, v, c, o, hi, he⟩ |
      ⟨v, c, o, hi, he⟩ | ⟨_, _, _, _, _, -, he⟩
  all_goals
    rw [he] at h
    cases h
  · exact stepKind_noteOn ⟨n, v, c, o, .inl (hi ▸ hdispatch)⟩ n
  · exact stepKind_noteOff ⟨n, v, c, o, .inr (hi ▸ hdispatch)⟩ n
  · exact stepKind_pitchBend ⟨v, c, o, hi ▸ hdispatch⟩ v
  · exact .ignored hdispatch

/-- APPLY comes next only while its FIFO holds a write (R60). -/
theorem exists_pending_of_apply {s : State} {f : Fifo} (hmove : s.nextMove = some (.apply f)) :
    ∃ w ws, s.pending f = w :: ws := by
  have henabled := nextMove_enabled s _ hmove
  cases hpending : s.pending f with
  | nil => simp [State.enabled, hpending] at henabled
  | cons w ws => exact ⟨w, ws, rfl⟩

theorem stepKind_of_apply {s : State} {f : Fifo} (hmove : s.nextMove = some (.apply f)) :
    StepKind s (s.dropMove.applyHead f) := by
  obtain ⟨w, ws, hpending⟩ := exists_pending_of_apply hmove
  rw [applyHead_cons _ f w ws ((dropMove_pending s f).trans hpending)]
  exact .apply hmove hpending

theorem stepKind_of_take {s t : State} (hmove : s.nextMove = some .take)
    (h : takeArrival s.dropMove = .next t) : StepKind s t := by
  rcases takeArrival_cases s.dropMove with ⟨hport, -⟩ | ⟨a, rest, hport, ⟨i, hi, he⟩ | ⟨e, -, he⟩⟩
  · have henabled := nextMove_enabled s _ hmove
    rw [dropMove_port] at hport
    simp [State.enabled, hport] at henabled
  · rw [he] at h
    rcases decodeArrival_ok hi with ⟨bytes, rfl, hbytes, hformat⟩ | ⟨rfl, rfl⟩
    · exact stepKind_of_command ⟨hmove, bytes, rest, hport, hbytes⟩ hformat h
    · exact stepKind_of_reset ⟨hmove, rest, hport⟩ h
  · rw [he] at h
    cases h

theorem stepKind_of_block {s t : State} (hmove : s.nextMove = some .engine) (hbusy : s.busy = true)
    (h : blockStep s.dropMove = .next t) : StepKind s t := by
  rcases blockStep_cases s.dropMove with ⟨hlt, r, hdue, he⟩ | ⟨hlt, hdue, he⟩ | ⟨hnot, he⟩
  all_goals rw [he] at h
  · exact stepKind_of_record ⟨hmove, hbusy, hlt, r, hdue, rfl⟩ h
  · cases h
    exact .sample ⟨hmove, hbusy, hlt, hdue⟩
  · cases h
    exact .finish ⟨hmove, hbusy, BitVec.not_lt.mp hnot⟩

theorem stepKind_of_release {s t : State} (hmove : s.nextMove = some .engine) (hidle : s.busy = false)
    (h : releaseHeld s.dropMove = .next t) : StepKind s t := by
  rcases releaseHeld_cases s.dropMove with ⟨hheld, -⟩ | ⟨r, rest, hheld, he⟩ | ⟨l, rest, hheld, he⟩
  · have henabled := nextMove_enabled s _ hmove
    rw [dropMove_held] at hheld
    simp [State.enabled, hheld, hidle] at henabled
  · rw [he] at h
    cases h
    exact stepKind_rate ⟨hidle, r, .inr ⟨hmove, hidle, rest, hheld⟩⟩ (.inr rfl) r
  · rcases startBlock_cases l s.dropMove.dropHeld with ⟨hlength, hs⟩ | ⟨-, hs⟩
    all_goals
      rw [he, hs] at h
      cases h
    exact .start ⟨hidle, l, .inr ⟨hmove, hidle, rest, hheld⟩⟩ (.inr rfl) hlength

/-- Every step that is taken is of one of the kinds. -/
theorem stepKind_of_step {s t : State} (h : step s = .next t) : StepKind s t := by
  rcases step_cases s with ⟨hmove, he⟩ | ⟨f, hmove, he⟩ | ⟨hmove, he⟩ | ⟨hmove, hbusy, he⟩ | ⟨hmove, hidle, he⟩
  all_goals rw [he] at h
  · cases h
    exact .wait hmove
  · cases h
    exact stepKind_of_apply hmove
  · exact stepKind_of_take hmove h
  · exact stepKind_of_block hmove hbusy h
  · exact stepKind_of_release hmove hidle h

end Sys2Proof.Machine

/-! ### What every step keeps (R36, R53, R81, R152) -/

namespace Sys2Proof.Machine
open Sys2Proof.Safety

/-! #### Cursors that move by one (R32, R125) -/

theorem toNat_add_one_of_lt {x y : Word} (h : x < y) : (x + 1#32).toNat = x.toNat + 1 := by
  have := BitVec.lt_def.mp h
  rw [BitVec.toNat_add, BitVec.toNat_ofNat, Nat.mod_eq_of_lt (by omega)]

theorem eventIdx_lt_of_eventRead {s : State} {r : EventRecord} (h : s.eventRead = some r) :
    s.eventIdx.toNat < s.evbuf.length :=
  (List.getElem?_eq_some_iff.mp h).1

theorem eventRead_of_dueEvent {s : State} {r : EventRecord} (h : s.dueEvent = some r) : s.eventRead = some r :=
  ((dueEvent_eq_some s r).mp h).1

theorem eventIdx_lt_of_dispatches {s : State} {i : Instr} (h : Dispatches s i) :
    s.eventIdx.toNat < s.evbuf.length := by
  obtain ⟨-, -, -, r, hdue, -⟩ := h
  exact eventIdx_lt_of_eventRead (eventRead_of_dueEvent hdue)

theorem dispatches_of_note {s : State} (h : DispatchesNote s) : ∃ i, Dispatches s i := by
  obtain ⟨n, v, c, o, h | h⟩ := h
  · exact ⟨_, h⟩
  · exact ⟨_, h⟩

theorem dispatches_of_bend {s : State} (h : DispatchesBend s) : ∃ i, Dispatches s i := by
  obtain ⟨v, c, o, h⟩ := h
  exact ⟨_, h⟩

/-! #### The registers (R36) -/

theorem potFromEvent_le {old new : Word} (h : PotFromEvent old new) (hold : old.toNat ≤ Config.potMax) :
    new.toNat ≤ Config.potMax := by
  rcases h with rfl | hle
  · exact hold
  · exact hle

theorem registersLegal_of_same {s t : State} (h : RegistersLegal s) (ha : t.pairA = s.pairA := by simp)
    (hb : t.pairB = s.pairB := by simp) (hgain : t.gain = s.gain := by simp) : RegistersLegal t :=
  ⟨ha ▸ h.pairA_le, hb ▸ h.pairB_le, hgain ▸ h.gain_le⟩

theorem reset_registersLegal : RegistersLegal State.reset where
  pairA_le := reset_pairA_toNat.trans_le (Nat.le_of_lt_succ Config.defaultA.isLt)
  pairB_le := reset_pairB_toNat.trans_le (Nat.le_of_lt_succ Config.defaultB.isLt)
  gain_le := reset_gain_toNat.trans_le (Nat.le_of_lt_succ Config.defaultGain.isLt)

theorem stepKind_registersLegal {s t : State} (h : RegistersLegal s) (hkind : StepKind s t) :
    RegistersLegal t := by
  cases hkind with
  | wait | noEffect | issue | hold | ignored | sample | finish => exact registersLegal_of_same h
  | @apply f w ws =>
    cases f with
    | potA => exact { h with pairA_le := potOperand_le w }
    | potB => exact { h with pairB_le := potOperand_le w }
    | gain => exact { h with gain_le := gainOperand_le w }
    | gesture => exact { h with }
  | rate _ hu => rcases hu with rfl | rfl <;> exact registersLegal_of_same h
  | start _ hu => rcases hu with rfl | rfl <;> exact registersLegal_of_same h
  | reset => exact registersLegal_of_same reset_registersLegal
  | note _ ha hb =>
    exact { h with pairA_le := potFromEvent_le ha h.pairA_le, pairB_le := potFromEvent_le hb h.pairB_le }
  | bend _ hb => exact { h with pairB_le := potFromEvent_le hb h.pairB_le }

/-! #### The block progress (R32, R53) -/

theorem advanceEvent_progressLegal {s : State} (h : ProgressLegal s) (hlt : s.eventIdx.toNat < s.evbuf.length) :
    ProgressLegal s.advanceEvent := by
  have hle : (s.eventIdx + 1#32).toNat ≤ s.eventIdx.toNat + 1 := by
    rw [BitVec.toNat_add]
    exact Nat.mod_le _ _
  exact { h with event_le := fun _ => hle.trans hlt }

/-- The block progress reads six fields only. -/
theorem progressLegal_of_same {s t : State} (h : ProgressLegal s) (hbusy : t.busy = s.busy := by simp)
    (hlength : t.blkLen = s.blkLen := by simp) (hsample : t.sampleIdx = s.sampleIdx := by simp)
    (hevent : t.eventIdx = s.eventIdx := by simp) (hbuf : t.evbuf = s.evbuf := by simp)
    (hout : t.out = s.out := by simp) : ProgressLegal t := by
  obtain ⟨h1, h2, h3, h4, h5⟩ := h
  constructor <;> simpa only [hbusy, hlength, hsample, hevent, hbuf, hout]

theorem reset_progressLegal : ProgressLegal State.reset where
  sample_le := nofun
  event_le := nofun
  events_lt := nofun
  out_length := nofun
  out_idle _ := rfl

theorem stepKind_progressLegal {s t : State} (h : ProgressLegal s) (hkind : StepKind s t) :
    ProgressLegal t := by
  cases hkind with
  | wait | noEffect | issue | hold => exact progressLegal_of_same h
  | @apply f => cases f <;> exact { h with }
  | rate _ hu => rcases hu with rfl | rfl <;> exact progressLegal_of_same h
  | start _ hu hlength =>
    exact ⟨fun _ => Nat.zero_le _, fun _ => Nat.zero_le _, fun _ => hlength, fun _ => rfl, nofun⟩
  | reset => exact progressLegal_of_same reset_progressLegal
  | note hnote =>
    obtain ⟨i, hi⟩ := dispatches_of_note hnote
    exact progressLegal_of_same (advanceEvent_progressLegal h (eventIdx_lt_of_dispatches hi))
  | bend hbend =>
    obtain ⟨i, hi⟩ := dispatches_of_bend hbend
    exact progressLegal_of_same (advanceEvent_progressLegal h (eventIdx_lt_of_dispatches hi))
  | ignored hi => exact progressLegal_of_same (advanceEvent_progressLegal h (eventIdx_lt_of_dispatches hi))
  | sample hsample =>
    obtain ⟨-, hbusy, hlt, -⟩ := hsample
    have hnext : (s.sampleIdx + 1#32).toNat = s.sampleIdx.toNat + 1 := toNat_add_one_of_lt hlt
    refine { h with sample_le := fun _ => ?_, out_length := fun _ => ?_, out_idle := fun hidle => ?_ }
    · exact hnext.trans_le (BitVec.lt_def.mp hlt)
    · simp [h.out_length hbusy, hnext]
    · exact absurd hbusy (by simpa using hidle)
  | finish => exact ⟨nofun, nofun, nofun, nofun, fun _ => rfl⟩

/-! #### The words (R81, R152) -/

theorem sampleLegal_of_le {w : Word} (h : w.toNat ≤ Config.floatOne.toNat) : SampleLegal w := by
  unfold SampleLegal
  rw [magnitude32_toNat]
  exact (Nat.mod_le _ _).trans h

/-- R151: the mux emits silence, the gain or its negation. -/
theorem renderedSample_legal {s : State} (h : RegistersLegal s) : SampleLegal (renderedSample s) := by
  have hgain := sampleLegal_of_le h.gain_le
  unfold renderedSample
  rcases mux_cases s.notes.isEmpty s.gestureActive (sampleLevel s) s.gain with
    ⟨-, -, he⟩ | ⟨-, -, he⟩ | ⟨-, -, he⟩ <;> rw [he]
  · exact sampleLegal_of_le (by decide)
  · exact hgain
  · unfold SampleLegal
    rwa [neg32_magnitude]

theorem outputLegal_of_same {s t : State} (h : OutputLegal s) (hout : t.out = s.out := by simp)
    (hfinished : t.finished = s.finished := by simp) : OutputLegal t :=
  ⟨hout ▸ h.words, hfinished ▸ h.blocks⟩

theorem stepKind_outputLegal {s t : State} (h : Inv s) (hkind : StepKind s t) : OutputLegal t := by
  obtain ⟨hregisters, hprogress, hout⟩ := h
  cases hkind with
  | wait | noEffect | issue | hold | note | bend | ignored => exact outputLegal_of_same hout
  | @apply f => cases f <;> exact { hout with }
  | rate _ hu => rcases hu with rfl | rfl <;> exact outputLegal_of_same hout
  | start _ hu => rcases hu with rfl | rfl <;> exact { hout with words := nofun }
  | reset => exact { hout with words := nofun }
  | sample =>
    refine { hout with words := fun v hv => ?_ }
    rcases List.mem_append.mp hv with hv | hv
    · exact hout.words v hv
    · rw [List.mem_singleton.mp hv]
      exact renderedSample_legal (registersLegal_of_same hregisters)
  | finish hend =>
    obtain ⟨-, hbusy, hle⟩ := hend
    refine ⟨nofun, fun r hr => ?_⟩
    rcases List.mem_append.mp hr with hr | hr
    · exact hout.blocks r hr
    · rw [List.mem_singleton.mp hr]
      have hdone := Nat.le_antisymm (hprogress.sample_le hbusy) (BitVec.le_def.mp hle)
      exact ⟨(hprogress.out_length hbusy).trans hdone, hout.words⟩

end Sys2Proof.Machine

namespace Sys2Proof.Proofs
open Sys2Proof.Machine Sys2Proof.Safety

/-- Settles O46: each part of the invariant is kept by every kind of step. -/
theorem stepKeepsTheInvariant : Obligations.StepKeepsTheInvariant := by
  intro s t h hstep
  have hkind := stepKind_of_step hstep
  exact ⟨stepKind_registersLegal h.registers hkind, stepKind_progressLegal h.progress hkind,
    stepKind_outputLegal h hkind⟩

/-- Settles O45: after reset the parameters of R6 are in range, no block is in progress, and nothing is written. -/
theorem resetStateIsLegal : Obligations.ResetStateIsLegal :=
  ⟨⟨reset_registersLegal, reset_progressLegal, nofun, nofun⟩, nofun, nofun, nofun⟩

end Sys2Proof.Proofs

/-! ### Blocks whose events are in order (R126 to R128) -/

namespace Sys2Proof.Machine
open Sys2Proof.Safety

theorem exec_renderBlock_of_not_mustHold {s : State} (h : s.mustHold = false) (l : Word) :
    exec (.renderBlock l) s = startBlock l s := by
  simp only [exec, execRenderBlock, h, Bool.false_eq_true, if_false]

theorem startBlock_of_lt {s : State} (h : (s.eventPort.headD []).length < 2 ^ 32) (l : Word) :
    startBlock l s = .next (s.beginBlock l (s.eventPort.headD [])) := by
  rcases startBlock_cases l s with ⟨-, he⟩ | ⟨hge, -⟩
  · exact he
  · omega

theorem exec_renderBlock_of_idle {s : State} (hidle : s.busy = false) (hheld : s.held = [])
    (hlength : (s.eventPort.headD []).length < 2 ^ 32) (l : Word) :
    exec (.renderBlock l) s = .next (s.beginBlock l (s.eventPort.headD [])) := by
  rw [exec_renderBlock_of_not_mustHold ((mustHold_eq_false_iff s).mpr ⟨hidle, hheld⟩), startBlock_of_lt hlength]

theorem beginBlock_onTime {l : Word} {es : List EventRecord} (h : EventsInOrder l es) (s : State) :
    OnTime (s.beginBlock l es) :=
  ⟨fun _ => h.offsets_lt, fun _ => h.ordered, fun _ _ _ => BitVec.le_def.mpr (Nat.zero_le _)⟩

theorem eventRead_mem {s : State} {r : EventRecord} (h : s.eventRead = some r) : r ∈ s.evbuf :=
  List.mem_of_getElem? h

/-- DISPATCH keeps a block on time: the due record lies at the current sample, and the next one not before it. -/
theorem advanceEvent_onTime {s : State} {r : EventRecord} (hprogress : ProgressLegal s) (h : OnTime s)
    (hbusy : s.busy = true) (hdue : s.dueEvent = some r) : OnTime s.advanceEvent := by
  have hread := eventRead_of_dueEvent hdue
  obtain ⟨hk, hr⟩ := List.getElem?_eq_some_iff.mp hread
  have hnext : s.advanceEvent.eventIdx.toNat = s.eventIdx.toNat + 1 := by
    have := hprogress.events_lt hbusy
    rw [advanceEvent_eventIdx, BitVec.toNat_add, BitVec.toNat_ofNat, Nat.mod_eq_of_lt (by omega)]
  refine { h with pending_ge := fun _ q hq => ?_ }
  obtain ⟨hk', hq'⟩ := List.getElem?_eq_some_iff.mp hq
  have hlt : s.eventIdx.toNat < s.advanceEvent.eventIdx.toNat := by omega
  have hordered := List.pairwise_iff_getElem.mp (h.ordered hbusy) _ _ hk hk' hlt
  rw [hr] at hordered
  exact hq' ▸ BitVec.le_trans (h.pending_ge hbusy r hread) hordered

/-- RENDER_SAMPLE keeps a block on time: it runs only when no record is due. -/
theorem pending_ge_of_rendersSample {s : State} (hsample : RendersSample s) {r : EventRecord}
    (hread : s.eventRead = some r) : s.sampleIdx + 1#32 ≤ recordOffset r := by
  obtain ⟨-, -, hlt, hdue⟩ := hsample
  have hnot : ¬ recordOffset r ≤ s.sampleIdx := fun hle => by
    rw [(dueEvent_eq_some s r).mpr ⟨hread, hle⟩] at hdue
    cases hdue
  rw [BitVec.le_def, toNat_add_one_of_lt hlt]
  exact BitVec.lt_def.mp (BitVec.not_le.mp hnot)

/-- Being on time reads five fields only. -/
theorem onTime_of_same {s t : State} (h : OnTime s) (hbusy : t.busy = s.busy := by simp)
    (hlength : t.blkLen = s.blkLen := by simp) (hsample : t.sampleIdx = s.sampleIdx := by simp)
    (hevent : t.eventIdx = s.eventIdx := by simp) (hbuf : t.evbuf = s.evbuf := by simp) : OnTime t := by
  obtain ⟨hlt, hordered, hpending⟩ := h
  unfold State.eventRead at hpending
  constructor <;> simpa only [State.eventRead, hbusy, hlength, hsample, hevent, hbuf]

theorem stepKind_onTime {s t : State} (hprogress : ProgressLegal s) (h : OnTime s) (hbusy : s.busy = true)
    (hkind : StepKind s t) : OnTime t := by
  have dispatched {i : Instr} (hi : Dispatches s i) : OnTime s.advanceEvent := by
    obtain ⟨-, -, -, r, hdue, -⟩ := hi
    exact advanceEvent_onTime hprogress h hbusy hdue
  cases hkind with
  | wait | noEffect | issue | hold => exact onTime_of_same h
  | @apply f => cases f <;> exact { h with }
  | rate hrate => exact absurd hbusy (by simp [hrate.1])
  | start hstart => exact absurd hbusy (by simp [hstart.1])
  | reset _ hidle => exact absurd hbusy (by simp [hidle])
  | note hnote =>
    obtain ⟨i, hi⟩ := dispatches_of_note hnote
    exact onTime_of_same (dispatched hi)
  | bend hbend =>
    obtain ⟨i, hi⟩ := dispatches_of_bend hbend
    exact onTime_of_same (dispatched hi)
  | ignored hi => exact onTime_of_same (dispatched hi)
  | sample hsample => exact { h with pending_ge := fun _ _ hread => pending_ge_of_rendersSample hsample hread }
  | finish => exact ⟨nofun, nofun, nofun⟩

/-- R127: a record still to come would lie at or after `i`, and every record lies before `L`. -/
theorem eventRead_eq_none_of_onTime {s : State} (h : OnTime s) (hbusy : s.busy = true)
    (hend : s.blkLen ≤ s.sampleIdx) : s.eventRead = none := by
  by_contra hne
  obtain ⟨r, hread⟩ := Option.ne_none_iff_exists'.mp hne
  have hlt := h.offsets_lt hbusy r (eventRead_mem hread)
  have hge := h.pending_ge hbusy r hread
  exact BitVec.not_lt.mpr (BitVec.le_trans hend hge) hlt

end Sys2Proof.Machine

namespace Sys2Proof.Proofs
open Sys2Proof.Machine Sys2Proof.Safety

/-- Settles O41: START puts the cursor at sample 0, and DISPATCH and RENDER_SAMPLE never let a record fall behind
it. -/
theorem orderedBlockLosesNoEvent : Obligations.OrderedBlockLosesNoEvent := by
  refine ⟨fun l s hidle hheld hlength horder => ?_, fun s t hprogress htime hbusy hstep => ?_,
    fun s htime hbusy hend => eventRead_eq_none_of_onTime htime hbusy hend⟩
  · exact ⟨_, exec_renderBlock_of_idle hidle hheld hlength l, rfl, beginBlock_onTime horder s⟩
  · exact stepKind_onTime hprogress htime hbusy (stepKind_of_step hstep)

end Sys2Proof.Proofs

/-! ### What every step leaves unchanged (R21 to R33) -/

namespace Sys2Proof.Machine
open Sys2Proof.Safety

/-- A register effect leaves every FIFO as it is. -/
theorem applyWrite_pending (f g : Fifo) (w : Word) (s : State) : (applyWrite f w s).pending g = s.pending g := by
  cases f <;> cases g <;> rfl

theorem afterCommand_pending {s u : State} (h : AfterCommand s u) (f : Fifo) : u.pending f = s.pending f := by
  rcases h with rfl | rfl <;> simp

theorem resetEngine_pending (s : State) (f : Fifo) : s.resetEngine.pending f = [] := by cases f <;> rfl

/-- The register of a FIFO holds an operand's value (R170 to R173). -/
def WritesOperand (f : Fifo) (w : Word) (t : State) : Prop :=
  (f = .potA → t.pairA = potOperand w) ∧ (f = .potB → t.pairB = potOperand w) ∧
    (f = .gain → t.gain = gainOperand w) ∧ (f = .gesture → t.gestureActive = gestureOperand w)

theorem applyWrite_writesOperand (f : Fifo) (w : Word) (s : State) : WritesOperand f w (applyWrite f w s) := by
  cases f
  · exact ⟨fun _ => rfl, nofun, nofun, nofun⟩
  · exact ⟨nofun, fun _ => rfl, nofun, nofun⟩
  · exact ⟨nofun, nofun, fun _ => rfl, nofun⟩
  · exact ⟨nofun, nofun, nofun, fun _ => rfl⟩

/-- R151: with nothing to sound the sample is +0.0. -/
theorem renderedSample_of_silent {s : State} (hnotes : ∀ m : Note, s.notes.held m = false)
    (hgesture : s.gestureActive = false) : renderedSample s = 0x00000000#32 := by
  simp [renderedSample, mux, (isEmpty_iff_held s.notes).mpr hnotes, hgesture]

end Sys2Proof.Machine

namespace Sys2Proof.Proofs
open Sys2Proof.Machine Sys2Proof.Safety

/-- Settles O51: each kind of step writes the fields its update names, and is itself one of the writers. -/
theorem eachRegisterHasItsWriters : Obligations.EachRegisterHasItsWriters := by
  intro s t hstep
  cases stepKind_of_step hstep with
  | wait | noEffect | issue | hold => simp
  | @apply f w ws hmove => cases f <;> simp [applyWrite, applyPotA, applyPotB, applyGain, applyGesture, hmove]
  | rate hrate hu => rcases hu with rfl | rfl <;> simp [hrate]
  | start hstart hu => rcases hu with rfl | rfl <;> simp [hstart]
  | reset hreset hidle => simp [hreset, hidle, State.reset]
  | note hnote =>
    have hdispatch := dispatches_of_note hnote
    simp [hnote, hdispatch]
  | bend hbend =>
    have hdispatch := dispatches_of_bend hbend
    simp [hbend, hdispatch]
  | ignored hdispatch =>
    have hdispatch : ∃ i, Dispatches s i := ⟨_, hdispatch⟩
    simp [hdispatch]
  | sample hsample => simp [hsample]
  | finish hend => simp [hend]

/-- Settles O52: of the kinds of step only APPLY and RESET shorten a FIFO. -/
theorem waitingWriteLeavesOnlyByApplyOrReset : Obligations.WaitingWriteLeavesOnlyByApplyOrReset := by
  intro s t f hstep
  have kept {u : State} (h : u.pending f = s.pending f) : ∃ more, u.pending f = s.pending f ++ more :=
    ⟨[], h.trans (List.append_nil _).symm⟩
  cases stepKind_of_step hstep with
  | wait | noEffect | hold | note | bend | ignored | sample | finish => exact .inl (kept (by simp))
  | @apply g w ws hmove hpending =>
    by_cases hg : f = g
    · subst hg
      exact .inr (.inl ⟨hmove, w, ws, hpending, by simp [applyWrite_pending],
        applyWrite_writesOperand f w _⟩)
    · refine .inl (kept ?_)
      rw [applyWrite_pending, pending_setPending_other _ _ _ _ hg, dropMove_pending]
  | @issue g w =>
    by_cases hg : f = g
    · subst hg
      exact .inl ⟨[w], by simp⟩
    · refine .inl (kept ?_)
      rw [pending_issue_other _ _ _ _ hg]
      simp
  | rate _ hu => exact .inl (kept (by simp [afterCommand_pending hu]))
  | start _ hu => exact .inl (kept (by simp [afterCommand_pending hu]))
  | reset hreset => exact .inr (.inr ⟨hreset, resetEngine_pending _ f⟩)

/-- Settles O31: RENDER_SAMPLE is the one kind of step that appends a word; START, END and RESET empty the words. -/
theorem silenceIsExactWhateverTheCounters : Obligations.SilenceIsExactWhateverTheCounters := by
  intro s t hnotes hgesture hstep
  cases stepKind_of_step hstep with
  | wait | noEffect | issue | hold | note | bend | ignored => exact .inl (by simp)
  | @apply f => cases f <;> exact .inl rfl
  | rate _ hu => rcases hu with rfl | rfl <;> exact .inl rfl
  | start | reset | finish => exact .inr (.inl rfl)
  | sample =>
    have hsilent : renderedSample s.dropMove = 0x00000000#32 := renderedSample_of_silent hnotes hgesture
    exact .inr (.inr (by simp [hsilent]))

/-- Settles O33: RENDER_SAMPLE and RESET are the kinds of step that set the level. -/
theorem levelChangesOnlyWithASample : Obligations.LevelChangesOnlyWithASample := by
  intro s t hstep hlevel
  cases stepKind_of_step hstep with
  | wait | noEffect | issue | hold | note | bend | ignored | finish => simp at hlevel
  | @apply f => cases f <;> exact absurd rfl hlevel
  | rate _ hu => rcases hu with rfl | rfl <;> exact absurd rfl hlevel
  | start _ hu => rcases hu with rfl | rfl <;> exact absurd rfl hlevel
  | reset hreset hidle =>
    obtain ⟨-, rest, hport⟩ := hreset
    exact .inr ⟨hidle, rest, hport, by simp [hport]⟩
  | sample hsample =>
    obtain ⟨-, hbusy, -, -⟩ := hsample
    exact .inl ⟨hbusy, _, rfl⟩

/-- Settles O49: END is the one kind of step that writes `finished`. -/
theorem observationGrowsOnlyAtEnd : Obligations.ObservationGrowsOnlyAtEnd := by
  intro s t hstep
  cases stepKind_of_step hstep with
  | wait | noEffect | issue | hold | note | bend | ignored | reset | sample => exact .inl (by simp)
  | @apply f => cases f <;> exact .inl rfl
  | rate _ hu => rcases hu with rfl | rfl <;> exact .inl rfl
  | start _ hu => rcases hu with rfl | rfl <;> exact .inl rfl
  | finish hend =>
    obtain ⟨-, hbusy, hle⟩ := hend
    exact .inr ⟨hbusy, hle, rfl, rfl⟩

end Sys2Proof.Proofs

/-! ### Commands that wait for END (R61, R141) -/

namespace Sys2Proof.Machine
open Sys2Proof.Safety

theorem mustHold_eq_true_iff (s : State) : s.mustHold = true ↔ s.busy = true ∨ s.held ≠ [] := by
  simp [State.mustHold]

theorem exec_setSampleRate_of_mustHold {s : State} (h : s.mustHold = true) (r : Word) :
    exec (.setSampleRate r) s = .next (s.hold (.setSampleRate r)) := by
  simp only [exec, execSetSampleRate, h, if_true]

theorem exec_renderBlock_of_mustHold {s : State} (h : s.mustHold = true) (l : Word) :
    exec (.renderBlock l) s = .next (s.hold (.renderBlock l)) := by
  simp only [exec, execRenderBlock, h, if_true]

/-- During a block the rate stays, and the held list only grows (R61, R141). -/
theorem busy_step_keeps_rate_and_held {s t : State} (hbusy : s.busy = true) (hstep : step s = .next t) :
    t.sampleRate = s.sampleRate ∧ ∃ more, t.held = s.held ++ more := by
  cases stepKind_of_step hstep with
  | wait | noEffect | issue | note | bend | ignored | sample | finish =>
    exact ⟨by simp, [], by simp⟩
  | @apply f => cases f <;> exact ⟨rfl, [], by simp [applyWrite, applyPotA, applyPotB, applyGain, applyGesture]⟩
  | @hold c => exact ⟨rfl, [c], rfl⟩
  | rate hrate => exact absurd hbusy (by simp [hrate.1])
  | start hstart => exact absurd hbusy (by simp [hstart.1])
  | reset _ hidle => exact absurd hbusy (by simp [hidle])

/-- The effect of a rate change neither reads nor writes the held list. -/
theorem setSampleRateEffect_held (r : Word) (s : State) (hs : List HeldCommand) :
    { setSampleRateEffect r s with held := hs } = setSampleRateEffect r { s with held := hs } := by
  unfold setSampleRateEffect
  repeat' split
  all_goals rfl

section Release
variable {s : State} (hmove : s.nextMove = some .engine) (hidle : s.busy = false)
include hmove hidle

theorem step_of_held_rate {r : Word} {rest : List HeldCommand} (hheld : s.held = .setSampleRate r :: rest) :
    step s = .next (setSampleRateEffect r s.dropMove.dropHeld) := by
  simp [step_eq, hmove, runMove, engineStep, hidle, releaseHeld, hheld]

theorem step_of_held_renderBlock {l : Word} {rest : List HeldCommand} (hheld : s.held = .renderBlock l :: rest) :
    step s = startBlock l s.dropMove.dropHeld := by
  simp [step_eq, hmove, runMove, engineStep, hidle, releaseHeld, hheld]

end Release

/-! ### The steps of a block and the taking of an arrival (R63, R125, R152) -/

theorem step_of_take {s : State} {a : Arrival} {rest : List Arrival} {i : Instr}
    (hmove : s.nextMove = some .take) (hport : s.port = a :: rest) (hdecode : decodeArrival a = .ok i) :
    step s = exec i s.dropMove.dropArrival := by
  simp [step_eq, hmove, runMove, takeArrival, hport, hdecode]

theorem step_of_end {s : State} (hmove : s.nextMove = some .engine) (hbusy : s.busy = true)
    (hend : s.blkLen ≤ s.sampleIdx) : step s = .next s.dropMove.endBlock := by
  simp [step_eq, hmove, runMove, engineStep, hbusy, blockStep, BitVec.not_lt.mpr hend]

theorem nextMove_eq_none_of_nothing_enabled {s : State} (hidle : s.busy = false) (hheld : s.held = [])
    (hport : s.port = []) (hpending : ∀ f : Fifo, s.pending f = []) : s.nextMove = none := by
  have hnone (m : Move) : s.enabled m = false := by cases m <;> simp [State.enabled, hidle, hheld, hport, hpending]
  have heager : s.eagerMove = none := by simp [State.eagerMove, hnone]
  unfold State.nextMove
  split <;> simp [hnone, heager]

end Sys2Proof.Machine

namespace Sys2Proof.Proofs
open Sys2Proof.Machine Sys2Proof.Safety

/-- Settles O17: a held rate change is the plain one on the state whose held list is shorter. -/
theorem rateChangeWaitsForEnd : Obligations.RateChangeWaitsForEnd := by
  refine ⟨fun r s hwait => exec_setSampleRate_of_mustHold ((mustHold_eq_true_iff s).mpr hwait) r,
    fun s t hbusy hstep => busy_step_keeps_rate_and_held hbusy hstep, fun r s rest hmove hidle hheld => ?_⟩
  have hfree : State.mustHold { s with held := [], schedule := s.schedule.tail } = false :=
    (mustHold_eq_false_iff _).mpr ⟨hidle, rfl⟩
  refine ⟨_, exec_setSampleRate_of_not_mustHold hfree r, ?_⟩
  have hdropped : s.dropMove.dropHeld = { s.dropMove with held := rest } := by
    simp [State.dropHeld, hheld]
  rw [step_of_held_rate hmove hidle hheld, setSampleRateEffect_held, hdropped]
  rfl

/-- Settles O40: as O17, for START. -/
theorem renderBlockWaitsForEnd : Obligations.RenderBlockWaitsForEnd := by
  refine ⟨fun l s hwait => exec_renderBlock_of_mustHold ((mustHold_eq_true_iff s).mpr hwait) l,
    fun s t hbusy hstep => (busy_step_keeps_rate_and_held hbusy hstep).2,
    fun l s rest hmove hidle hheld hlength => ?_⟩
  refine ⟨_, exec_renderBlock_of_idle (s := { s with held := [], schedule := s.schedule.tail }) hidle rfl
    hlength l, ?_⟩
  rw [step_of_held_renderBlock hmove hidle hheld, startBlock_of_lt (s := s.dropMove.dropHeld) hlength]
  simp [State.beginBlock, State.dropHeld, State.dropMove, hheld]

/-- Settles O32: of the meanings, only the effects of a rate change, of START and of the note operations write a
register. -/
theorem onlyTheNamedOperationsWrite : Obligations.OnlyTheNamedOperationsWrite := by
  intro i s t h hreset
  rcases exec_next_cases i s t h with ⟨f, w, rfl⟩ | rfl | ⟨c, -, rfl⟩ | ⟨r, rfl, -, rfl⟩ |
      ⟨l, rfl, -, -, rfl⟩ | ⟨n, v, c, o, rfl, rfl⟩ | ⟨n, v, c, o, rfl, rfl⟩ | ⟨v, c, o, rfl, rfl⟩ |
      ⟨rfl, -, -⟩
  · simp
  · simp
  · simp
  · obtain ⟨a, m, r', he⟩ := setSampleRateEffect_eq r s
    simp [he]
  · simp
  · simp [noteOnEffect]
  · rw [noteOffEffect_frame]
    simp
  · rcases pitchBendEffect_cases Config.noteTable v s with ⟨-, he⟩ | ⟨-, he⟩ <;> simp [he]
  · exact absurd rfl hreset

/-- Settles O7: the move picks the branch of the step, and the branch decodes what it is handed. -/
theorem stepRunsTheDecodedInstruction : Obligations.StepRunsTheDecodedInstruction := by
  refine ⟨fun s bytes rest i hmove hport hdecode => ?_, fun s rest hmove hport => ?_,
    fun s r hmove hbusy hsample hread hoffset => step_of_due hmove hbusy hsample hread hoffset⟩
  · rw [step_of_take hmove hport hdecode]
    simp [State.dropArrival, State.dropMove, hport]
  · rw [step_of_take hmove hport rfl]
    simp [State.dropArrival, State.dropMove, hport]

/-- Settles O37: with nothing to wait for the meaning is START on the head of the event port. -/
theorem renderBlockStarts : Obligations.RenderBlockStarts := by
  refine fun l => ⟨decodeCommand_of_encodeNat (i := .renderBlock l) rfl rfl, fun s hidle hheld hlength => ?_⟩
  exact exec_renderBlock_of_idle hidle hheld hlength l

/-- Settles O38: with `i` at `L` the block's step is END, once the schedule entry is used up. -/
theorem blockEndDeliversItsWords : Obligations.BlockEndDeliversItsWords := fun _ hmove hbusy hend =>
  step_of_end hmove hbusy hend

/-- Settles O43: idle, RESET carries the five interface fields over. -/
theorem resetKeepsTheInterfaces : Obligations.ResetKeepsTheInterfaces := fun s hidle =>
  ⟨s.resetEngine, exec_reset_of_idle hidle, rfl, rfl, rfl, rfl, rfl, rfl⟩

/-- Settles O48: no move is enabled, so the step only uses up its schedule entry. -/
theorem idleEngineWaits : Obligations.IdleEngineWaits := by
  intro s hidle hheld hport hpending
  rw [step_eq, nextMove_eq_none_of_nothing_enabled hidle hheld hport hpending]
  rfl

end Sys2Proof.Proofs

/-! ### What can refuse a step (R200, R201) -/

namespace Sys2Proof.Machine
open Sys2Proof.Safety

/-- A meaning refuses for two reasons only: RESET during a block, and START with too long a list. -/
theorem exec_refused_cases (i : Instr) (s : State) (r : Refusal) (h : exec i s = .refused r) :
    (i = .reset ∧ s.busy = true ∧ r = .resetWhileBusy) ∨
      (∃ l, i = .renderBlock l ∧ s.busy = false ∧ 2 ^ 32 ≤ (s.eventPort.headD []).length ∧
        r = .tooManyEvents) := by
  cases i with
  | reset =>
    cases hbusy : s.busy
    · rw [exec_reset_of_idle hbusy] at h
      cases h
    · rw [exec_reset_of_busy hbusy] at h
      cases h
      exact .inl ⟨rfl, rfl, rfl⟩
  | renderBlock l =>
    cases hhold : s.mustHold
    · rw [exec_renderBlock_of_not_mustHold hhold] at h
      rcases startBlock_cases l s with ⟨-, he⟩ | ⟨hlength, he⟩
      all_goals
        rw [he] at h
        cases h
      obtain ⟨hidle, -⟩ := (mustHold_eq_false_iff s).mp hhold
      exact .inr ⟨l, rfl, hidle, hlength, rfl⟩
    · rw [exec_renderBlock_of_mustHold hhold] at h
      cases h
  | setSampleRate rate =>
    cases hhold : s.mustHold
    · rw [exec_setSampleRate_of_not_mustHold hhold] at h
      cases h
    · rw [exec_setSampleRate_of_mustHold hhold] at h
      cases h
  | setPotA | setPotB | setGain | setGesture | reserved00 | reserved07 | reserved08 | reserved10 | reserved20
  | reserved40 | reserved80 | noteOff | noteOn | pitchBend | ignored => cases h

theorem decodeArrival_error {a : Arrival} {e : DecodeError} (h : decodeArrival a = .error e) :
    ∃ bytes, a = .command bytes ∧ bytes.length ≠ 5 := by
  cases a with
  | command bytes =>
    refine ⟨bytes, rfl, fun hlength => ?_⟩
    have hok := decodeBytes_cmd40 hlength
    rw [show decodeBytes .cmd40 bytes = .error e from h] at hok
    cases hok
  | reset => cases h

/-- An event operation writes the notes and the pair, and completes. -/
theorem exec_decodeEvent_frame (r : EventRecord) (s : State) :
    ∃ ns a b, exec (decodeEvent r) s = .next ((s.setNotes ns).setPair a b) := by
  rcases exec_decodeEvent r s with ⟨n, _, _, _, -, he⟩ | ⟨n, _, _, _, -, he⟩ | ⟨v, _, _, -, he⟩ |
      ⟨_, _, _, _, _, -, he⟩
  · exact ⟨_, _, _, he⟩
  · rw [he, noteOffEffect_frame]
    exact ⟨(noteOffEffect Config.noteTable n s).notes, (noteOffEffect Config.noteTable n s).pairA,
      (noteOffEffect Config.noteTable n s).pairB, rfl⟩
  · rcases pitchBendEffect_cases Config.noteTable v s with ⟨-, hb⟩ | ⟨-, hb⟩ <;> rw [he, hb]
    · exact ⟨s.notes, s.pairA, s.pairB, rfl⟩
    · exact ⟨s.notes, s.pairA,
        storeInt (bentB (governingEntry Config.noteTable s.notes).b.val (bendOperand v)), rfl⟩
  · exact ⟨s.notes, s.pairA, s.pairB, he⟩

theorem blockStep_accepted (s : State) : ∃ t, blockStep s = .next t := by
  rcases blockStep_cases s with ⟨-, r, -, he⟩ | ⟨-, -, he⟩ | ⟨-, he⟩
  · obtain ⟨ns, a, b, hr⟩ := exec_decodeEvent_frame r s.advanceEvent
    exact ⟨_, he.trans hr⟩
  · exact ⟨_, he⟩
  · exact ⟨_, he⟩

end Sys2Proof.Machine

namespace Sys2Proof.Proofs
open Sys2Proof.Machine Sys2Proof.Safety

/-- Settles O47: a block's own step always completes; what is left to refuse is an arrival's word, its meaning,
or START of a held command. -/
theorem onlyTheNamedRefusals : Obligations.OnlyTheNamedRefusals := by
  refine ⟨fun _ => nofun, fun s r h => ?_⟩
  rcases step_cases s with ⟨-, he⟩ | ⟨f, -, he⟩ | ⟨-, he⟩ | ⟨-, -, he⟩ | ⟨-, hidle, he⟩
  all_goals rw [he] at h
  · cases h
  · cases h
  · rcases takeArrival_cases s.dropMove with ⟨-, he⟩ | ⟨a, rest, hport, ⟨i, hi, he⟩ | ⟨e, herror, he⟩⟩
    all_goals rw [he] at h
    · cases h
    · rcases exec_refused_cases i _ r h with ⟨rfl, hbusy, rfl⟩ | ⟨l, -, hidle, hlength, rfl⟩
      · rcases decodeArrival_ok hi with ⟨_, -, -, hformat⟩ | ⟨rfl, -⟩
        · cases hformat
        · exact .inl ⟨rfl, hbusy, rest, hport⟩
      · exact .inr (.inr ⟨rfl, hidle, hlength⟩)
    · cases h
      obtain ⟨bytes, rfl, hlength⟩ := decodeArrival_error herror
      exact .inr (.inl ⟨bytes, rest, hport, hlength, rfl⟩)
  · obtain ⟨t, ht⟩ := blockStep_accepted s.dropMove
    rw [ht] at h
    cases h
  · rcases releaseHeld_cases s.dropMove with ⟨-, he⟩ | ⟨_, _, -, he⟩ | ⟨l, _, -, he⟩
    all_goals rw [he] at h
    · cases h
    · cases h
    · rcases startBlock_cases l s.dropMove.dropHeld with ⟨-, hs⟩ | ⟨hlength, hs⟩
      all_goals
        rw [hs] at h
        cases h
      exact .inr (.inr ⟨rfl, hidle, hlength⟩)

end Sys2Proof.Proofs

/-! ### Runs (R60, R152) -/

namespace Sys2Proof.Machine
open Sys2Proof.Safety

/-! #### Draining the pending FIFOs (R60) -/

theorem stepKind_schedule {s t : State} (hkind : StepKind s t) : t.schedule = s.schedule.tail := by
  cases hkind with
  | @apply f => cases f <;> rfl
  | @issue f => cases f <;> rfl
  | rate _ hu => rcases hu with rfl | rfl <;> rfl
  | start _ hu => rcases hu with rfl | rfl <;> rfl
  | _ => rfl

theorem waitingWrites_eq_of_pending {s t : State} (h : ∀ f, t.pending f = s.pending f) :
    waitingWrites t = waitingWrites s := by
  have hA : t.pendA = s.pendA := h .potA
  have hB : t.pendB = s.pendB := h .potB
  have hgain : t.pendGain = s.pendGain := h .gain
  have hgesture : t.pendGesture = s.pendGesture := h .gesture
  simp only [waitingWrites, hA, hB, hgain, hgesture]

theorem waitingWrites_setPending (s : State) (f : Fifo) (ws : List Word) :
    waitingWrites (s.setPending f ws) + (s.pending f).length = waitingWrites s + ws.length := by
  cases f <;> simp only [waitingWrites, State.setPending, State.pending] <;> omega

theorem waitingWrites_eq_zero_iff (s : State) : waitingWrites s = 0 ↔ ∀ f : Fifo, s.pending f = [] := by
  constructor
  · intro h f
    cases f <;> simp_all [waitingWrites, State.pending]
  · intro h
    rw [waitingWrites, show s.pendA = [] from h .potA, show s.pendB = [] from h .potB,
      show s.pendGain = [] from h .gain, show s.pendGesture = [] from h .gesture]
    rfl

/-- APPLY takes one waiting write away. -/
theorem waitingWrites_apply {s : State} {f : Fifo} {w : Word} {ws : List Word} (v : Word)
    (hpending : s.pending f = w :: ws) :
    waitingWrites (applyWrite f v (s.dropMove.setPending f ws)) + 1 = waitingWrites s := by
  have hset := waitingWrites_setPending s.dropMove f ws
  have hdrop := waitingWrites_eq_of_pending (dropMove_pending s)
  rw [waitingWrites_eq_of_pending (applyWrite_pending f · v _)]
  simp only [dropMove_pending, hpending, List.length_cons] at hset
  omega

/-- A step adds at most one waiting write. -/
theorem stepKind_waitingWrites_le {s t : State} (hkind : StepKind s t) : waitingWrites t ≤ waitingWrites s + 1 := by
  have same {u : State} (h : ∀ f, u.pending f = s.pending f) : waitingWrites u ≤ waitingWrites s + 1 :=
    (waitingWrites_eq_of_pending h).trans_le (Nat.le_succ _)
  cases hkind with
  | wait | noEffect | hold | note | bend | ignored | sample | finish => exact same (by simp)
  | @apply f w ws _ hpending =>
    have := waitingWrites_apply w hpending
    omega
  | @issue f w =>
    have hset := waitingWrites_setPending s.dropMove.dropArrival f (s.dropMove.dropArrival.pending f ++ [w])
    have hdrop : waitingWrites s.dropMove.dropArrival = waitingWrites s := rfl
    rw [List.length_append, List.length_singleton] at hset
    unfold State.issue
    omega
  | rate _ hu => exact same (by simp [afterCommand_pending hu])
  | start _ hu => exact same (by simp [afterCommand_pending hu])
  | reset => exact Nat.zero_le _

theorem waitingWrites_lt_of_apply {s t : State} {f : Fifo} (hmove : s.nextMove = some (.apply f))
    (hstep : step s = .next t) : waitingWrites t < waitingWrites s := by
  obtain ⟨w, ws, hpending⟩ := exists_pending_of_apply hmove
  rw [step_of_apply hmove hpending] at hstep
  cases hstep
  have := waitingWrites_apply w hpending
  omega

/-- The eager order applies waiting writes first (log 8). -/
theorem eagerMove_apply_of_waiting {s : State} (hwaiting : 0 < waitingWrites s) :
    ∃ f, s.eagerMove = some (.apply f) := by
  unfold State.eagerMove
  iterate 4
    split
    · exact ⟨_, rfl⟩
  next hA hB hgain hgesture =>
    have hempty : ∀ f : Fifo, s.pending f = [] := by
      intro f
      cases f
      · simpa [State.enabled] using hA
      · simpa [State.enabled] using hB
      · simpa [State.enabled] using hgain
      · simpa [State.enabled] using hgesture
    rw [(waitingWrites_eq_zero_iff s).mpr hempty] at hwaiting
    exact absurd hwaiting (Nat.lt_irrefl 0)

theorem nextMove_of_schedule_nil {s : State} (hschedule : s.schedule = []) : s.nextMove = s.eagerMove := by
  rw [State.nextMove, hschedule]

/-- What O15 bounds falls with every step while a write waits. -/
theorem drain_measure_lt {s t : State} (hwaiting : 0 < waitingWrites s) (hstep : step s = .next t) :
    2 * t.schedule.length + waitingWrites t < 2 * s.schedule.length + waitingWrites s := by
  have hkind := stepKind_of_step hstep
  rw [stepKind_schedule hkind]
  cases hschedule : s.schedule with
  | nil =>
    obtain ⟨f, hmove⟩ := eagerMove_apply_of_waiting hwaiting
    rw [← nextMove_of_schedule_nil hschedule] at hmove
    simpa using waitingWrites_lt_of_apply hmove hstep
  | cons m ms =>
    have hle := stepKind_waitingWrites_le hkind
    simp only [List.tail_cons, List.length_cons]
    omega

/-- After `n` steps nothing waits, or a step before was refused. -/
def DrainedAfter (n : Nat) (s : State) : Prop :=
  (∃ t, runSteps n s = .next t ∧ ∀ f : Fifo, t.pending f = []) ∨ ∃ r, runSteps n s = .refused r

theorem drainedAfter_zero {s : State} (h : waitingWrites s = 0) : DrainedAfter 0 s :=
  .inl ⟨s, runSteps_zero s, (waitingWrites_eq_zero_iff s).mp h⟩

theorem drainedAfter_succ {s t : State} {n : Nat} (hstep : step s = .next t) (h : DrainedAfter n t) :
    DrainedAfter (n + 1) s := by
  unfold DrainedAfter
  rwa [runSteps_succ_next n s t hstep]

theorem exists_drainedAfter (bound : Nat) (s : State) (h : 2 * s.schedule.length + waitingWrites s ≤ bound) :
    ∃ n, n ≤ bound ∧ DrainedAfter n s := by
  induction bound generalizing s with
  | zero => exact ⟨0, Nat.le_refl 0, drainedAfter_zero (by omega)⟩
  | succ bound ih =>
    rcases Nat.eq_zero_or_pos (waitingWrites s) with hzero | hwaiting
    · exact ⟨0, Nat.zero_le _, drainedAfter_zero hzero⟩
    · cases hstep : step s with
      | next t =>
        have := drain_measure_lt hwaiting hstep
        obtain ⟨n, hn, hdrained⟩ := ih t (by omega)
        exact ⟨n + 1, by omega, drainedAfter_succ hstep hdrained⟩
      | refused r => exact ⟨1, by omega, .inr ⟨r, runSteps_succ_refused 0 s r hstep⟩⟩
      | fault f => cases f

end Sys2Proof.Machine

namespace Sys2Proof.Proofs
open Sys2Proof.Machine Sys2Proof.Safety

/-- Settles O15: a schedule entry pays for itself and for the one write its step may add, and with the schedule used
up every step is an APPLY. -/
theorem waitingWritesDrain : Obligations.WaitingWritesDrain := fun s =>
  exists_drainedAfter _ s (Nat.le_refl _)

end Sys2Proof.Proofs

/-! #### A block left alone (R125, R152) -/

namespace Sys2Proof.Machine
open Sys2Proof.Safety

/-- A block is in progress and no write or schedule entry comes between its steps. -/
structure RunsAlone (s : State) : Prop where
  progress : ProgressLegal s
  busy : s.busy = true
  schedule : s.schedule = []
  pending : ∀ f : Fifo, s.pending f = []

theorem nextMove_of_runsAlone {s : State} (h : RunsAlone s) : s.nextMove = some .engine := by
  rw [nextMove_of_schedule_nil h.schedule]
  simp [State.eagerMove, State.enabled, h.pending, h.busy]

theorem runsAlone_step {s t : State} (h : RunsAlone s) (hstep : step s = .next t) (hbusy : t.busy = true)
    (hpending : ∀ f, t.pending f = s.pending f) : RunsAlone t where
  progress := stepKind_progressLegal h.progress (stepKind_of_step hstep)
  busy := hbusy
  schedule := by rw [stepKind_schedule (stepKind_of_step hstep), h.schedule, List.tail_nil]
  pending f := (hpending f).trans (h.pending f)

/-- Within `n` steps the block ends with `L` words, those it has among them, and takes nothing from outside. -/
def EndsWithin (n : Nat) (s : State) : Prop :=
  ∃ k, k ≤ n ∧ ∃ (t : State) (words : List Word), runSteps k s = .next t ∧ t.busy = false ∧
    t.finished = s.finished ++ [{ samples := s.out ++ words, written := s.blkLen }] ∧
    (s.out ++ words).length = s.blkLen.toNat ∧ t.port = s.port ∧ t.held = s.held

theorem endsWithin_of_end {s : State} (h : RunsAlone s) (hend : s.blkLen ≤ s.sampleIdx) (n : Nat) :
    EndsWithin (n + 1) s := by
  have hstep := step_of_end (nextMove_of_runsAlone h) h.busy hend
  have hdone := Nat.le_antisymm (h.progress.sample_le h.busy) (BitVec.le_def.mp hend)
  refine ⟨1, by omega, _, [], (runSteps_succ_next 0 s _ hstep).trans (runSteps_zero _), rfl, ?_, ?_, rfl, rfl⟩
  · rw [List.append_nil]
    rfl
  · rw [List.append_nil, h.progress.out_length h.busy, hdone]

/-- A step of the block that writes the words `ws` and nothing else that the end depends on. -/
theorem endsWithin_succ {s t : State} {n : Nat} (ws : List Word) (hstep : step s = .next t) (h : EndsWithin n t)
    (hout : t.out = s.out ++ ws) (hfinished : t.finished = s.finished) (hlength : t.blkLen = s.blkLen)
    (hport : t.port = s.port) (hheld : t.held = s.held) : EndsWithin (n + 1) s := by
  obtain ⟨k, hk, u, words, hrun, hidle, hdelivered, hcount, huport, huheld⟩ := h
  rw [hout, List.append_assoc] at hdelivered hcount
  exact ⟨k + 1, by omega, u, ws ++ words, (runSteps_succ_next k s t hstep).trans hrun, hidle,
    by rw [hdelivered, hfinished, hlength], by rw [hcount, hlength], huport.trans hport, huheld.trans hheld⟩

/-- What is left to do in a block, a step for each sample and each record. -/
def remaining (s : State) : Nat :=
  (s.blkLen.toNat - s.sampleIdx.toNat) + (s.evbuf.length - s.eventIdx.toNat)

theorem remaining_advanceEvent {s : State} (h : ProgressLegal s) (hbusy : s.busy = true)
    (hlt : s.eventIdx.toNat < s.evbuf.length) : remaining s.advanceEvent < remaining s := by
  have hbound := h.events_lt hbusy
  have hnext : (s.eventIdx + 1#32).toNat = s.eventIdx.toNat + 1 := by
    rw [BitVec.toNat_add, BitVec.toNat_ofNat, Nat.mod_eq_of_lt (by omega)]
  simp only [remaining, advanceEvent_eventIdx, advanceEvent_evbuf, advanceEvent_blkLen, advanceEvent_sampleIdx,
    hnext]
  omega

theorem remaining_renderSample {s : State} (hlt : s.sampleIdx < s.blkLen) :
    remaining (renderSample s) < remaining s := by
  have hlt' := BitVec.lt_def.mp hlt
  rw [renderSample_eq]
  simp only [remaining, toNat_add_one_of_lt hlt]
  omega

theorem renderSample_pending (s : State) (f : Fifo) : (renderSample s).pending f = s.pending f := by
  unfold renderSample renderAdvance
  simp

/-- A block left alone takes one step for each sample and record still to come, then END. -/
theorem endsWithin_remaining (n : Nat) (s : State) (h : RunsAlone s) (hn : remaining s ≤ n) :
    EndsWithin (n + 1) s := by
  induction n generalizing s with
  | zero =>
    have hend : s.blkLen ≤ s.sampleIdx := by
      unfold remaining at hn
      rw [BitVec.le_def]
      omega
    exact endsWithin_of_end h hend 0
  | succ n ih =>
    have hmove := nextMove_of_runsAlone h
    by_cases hlt : s.sampleIdx < s.blkLen
    · cases hdue : s.dueEvent with
      | some r =>
        obtain ⟨hread, hoffset⟩ := (dueEvent_eq_some s r).mp hdue
        obtain ⟨ns, a, b, he⟩ := exec_decodeEvent_frame r s.dropMove.advanceEvent
        have hstep := (step_of_due hmove h.busy hlt hread hoffset).trans he
        have hless : remaining s.advanceEvent < remaining s :=
          remaining_advanceEvent h.progress h.busy (eventIdx_lt_of_eventRead hread)
        refine endsWithin_succ [] hstep (ih _ (runsAlone_step h hstep h.busy (by simp)) ?_)
          (List.append_nil _).symm rfl rfl rfl rfl
        exact Nat.le_of_lt_succ (hless.trans_le hn)
      | none =>
        have hstep := step_of_no_due hmove h.busy hlt hdue
        have hless : remaining (renderSample s.dropMove) < remaining s :=
          remaining_renderSample (s := s.dropMove) hlt
        refine endsWithin_succ [renderedSample s.dropMove] hstep
          (ih _ (runsAlone_step h hstep ?_ (renderSample_pending _)) (by omega)) ?_ ?_ ?_ ?_ ?_
        all_goals rw [renderSample_eq]
        · exact h.busy
        all_goals rfl
    · exact endsWithin_of_end h (BitVec.not_lt.mp hlt) _

/-! #### Runs of APPLY alone (R60, R223) -/

section ApplyRuns
variable {s : State} {x : Word} {rest : List Word} (n : Nat) (ms : List Move)

theorem runSteps_apply_potA (hpending : s.pendA = x :: rest) :
    runSteps (n + 1) { s with schedule := .apply .potA :: ms } =
      runSteps n { s with schedule := ms, pendA := rest, pairA := potOperand x } := by
  have hmove : State.nextMove { s with schedule := .apply .potA :: ms } = some (.apply .potA) :=
    nextMove_scheduled _ _ ms rfl (by simp [State.enabled, State.pending, hpending])
  rw [runSteps_succ_next _ _ _ (step_of_apply hmove hpending), applyWrite_potA]
  rfl

theorem runSteps_apply_potB (hpending : s.pendB = x :: rest) :
    runSteps (n + 1) { s with schedule := .apply .potB :: ms } =
      runSteps n { s with schedule := ms, pendB := rest, pairB := potOperand x } := by
  have hmove : State.nextMove { s with schedule := .apply .potB :: ms } = some (.apply .potB) :=
    nextMove_scheduled _ _ ms rfl (by simp [State.enabled, State.pending, hpending])
  rw [runSteps_succ_next _ _ _ (step_of_apply hmove hpending), applyWrite_potB]
  rfl

end ApplyRuns

/-! ### An instruction placed where the next step takes it (log 1) -/

theorem withFetchWord_command (s : State) (w : Nat) : s.withFetchWord 40 w = s.placeCommand w := rfl

theorem withFetchWord_event (s : State) (w : Nat) : s.withFetchWord 64 w = s.placeEvent w := rfl

theorem withFetchWord_reset (s : State) : s.withFetchWord 8 (encodeNat .reset) = s.placeReset := rfl

theorem placeCommand_nextMove (s : State) (w : Nat) : (s.placeCommand w).nextMove = some .take :=
  nextMove_scheduled _ _ _ rfl rfl

theorem placeReset_nextMove (s : State) : s.placeReset.nextMove = some .take :=
  nextMove_scheduled _ _ _ rfl rfl

theorem placeEvent_nextMove (s : State) (w : Nat) : (s.placeEvent w).nextMove = some .engine :=
  nextMove_scheduled _ _ _ rfl rfl

theorem saturate_toNat_eq_min (v : Nat) : (saturate v).toNat = min v (2 ^ 32 - 1) := saturate_toNat v

/-- The block that `placeEvent` makes is one sample longer than its record's offset (log 14). -/
theorem saturate_succ_of_lt {o : Word} (h : o.toNat < 2 ^ 32 - 1) : saturate (o.toNat + 1) = o + 1#32 := by
  apply BitVec.eq_of_toNat_eq
  rw [saturate_toNat_eq_min, BitVec.toNat_add, BitVec.toNat_ofNat]
  omega

end Sys2Proof.Machine

namespace Sys2Proof.Proofs
open Sys2Proof.Machine Sys2Proof.Safety

/-- Settles O39: the block's own step is the only one enabled, and each but END leaves less to do. -/
theorem blockRunsToItsEnd : Obligations.BlockRunsToItsEnd := fun s hprogress hbusy hschedule hpending =>
  endsWithin_remaining _ s ⟨hprogress, hbusy, hschedule, hpending⟩ (Nat.le_refl _)

/-- Settles O14: the schedule names the APPLY steps that have happened. -/
theorem everyTornPairIsReachable : Obligations.EveryTornPairIsReachable := by
  intro s x y hA hB applyA applyB
  cases applyA <;> cases applyB
  · exact ⟨[], _, runSteps_zero _, by simp [hA, hB]⟩
  · exact ⟨[.apply .potB], _, (runSteps_apply_potB 0 [] hB).trans (runSteps_zero _), by simp [hA]⟩
  · exact ⟨[.apply .potA], _, (runSteps_apply_potA 0 [] hA).trans (runSteps_zero _), by simp [hB]⟩
  · have hrun := runSteps_apply_potB (s := { s with pendA := [], pairA := potOperand x }) 0 [] hB
    exact ⟨[.apply .potA, .apply .potB], _,
      (runSteps_apply_potA 1 [.apply .potB] hA).trans (hrun.trans (runSteps_zero _)), by simp⟩

/-- Settles O8: the placed word is what the next move takes, and it decodes to the operation it encodes. -/
theorem placedInstructionRunsNext : Obligations.PlacedInstructionRunsNext := by
  refine ⟨fun i s hwf hformat => ?_, fun s => ?_, fun i s r hwf hformat hr hoffset => ?_⟩
  · have hdecode : decodeBytes .cmd40 (encode i) = .ok i := hformat ▸ decodeInvertsEncode i hwf
    rw [encode, hformat] at hdecode
    rw [withFetchWord_command]
    exact step_of_take (placeCommand_nextMove s _) rfl hdecode
  · rw [withFetchWord_reset]
    exact step_of_take (placeReset_nextMove s) rfl rfl
  · have hword : BitVec.ofNat 64 (encodeNat i) = r := by rw [← hr, BitVec.ofNat_toNat, BitVec.setWidth_eq]
    have hlt : recordOffset r < recordOffset r + 1#32 := by
      rw [← saturate_succ_of_lt hoffset, BitVec.lt_def, saturate_toNat_eq_min]
      omega
    have hplaced : s.placeEvent (encodeNat i) =
        { s with
          busy := true, evbuf := [r], eventIdx := 0#32, sampleIdx := recordOffset r
          blkLen := recordOffset r + 1#32, schedule := .engine :: s.schedule } := by
      rw [State.placeEvent, hword, saturate_succ_of_lt hoffset]
    have hmove := placeEvent_nextMove s (encodeNat i)
    rw [withFetchWord_event]
    rw [hplaced] at hmove ⊢
    rw [step_of_due hmove rfl hlt rfl (BitVec.le_refl _), decodeEvent_of_encodeNat hwf hformat hr]
    rfl

end Sys2Proof.Proofs

/-! ### Rescaling (R140, R142) -/

namespace Sys2Proof.Machine

theorem rescale_toNat (run new old : Word) :
    (rescale run new old).toNat = min (roundHalfUp (run.toNat * new.toNat) old.toNat) (2 ^ 32 - 1) :=
  saturate_toNat_eq_min _

/-- R140 with an earlier rate and a new one. -/
theorem exec_setSampleRate_rescales {r : Word} {s : State} (hidle : s.busy = false) (hheld : s.held = [])
    (hrate : s.sampleRate ≠ 0#32) (hr : r ≠ 0#32) :
    exec (.setSampleRate r) s = .next
      { s with
        sampleRate := r
        astableRun := rescale s.astableRun r s.sampleRate
        monostableRun := rescale s.monostableRun r s.sampleRate } := by
  rw [exec_setSampleRate_of_not_mustHold ((mustHold_eq_false_iff s).mpr ⟨hidle, hheld⟩)]
  rcases setSampleRateEffect_cases r s with ⟨hzero, -⟩ | ⟨-, hzero, -⟩ | ⟨-, -, he⟩
  · exact absurd hzero hr
  · exact absurd hzero hrate
  · rw [he]

theorem toNat_pos_of_ne_zero {w : Word} (h : w ≠ 0#32) : 0 < w.toNat :=
  Nat.pos_of_ne_zero fun hzero => h (BitVec.eq_of_toNat_eq hzero)

/-- Rounding leaves a whole multiple as it is. -/
theorem roundHalfUp_mul (n : Nat) {d : Nat} (hd : 0 < d) : roundHalfUp (n * d) d = n := by
  rw [roundHalfUp, show 2 * (n * d) + d = d + n * (2 * d) by ring, Nat.add_mul_div_right _ _ (by omega),
    Nat.div_eq_of_lt (by omega), Nat.zero_add]

theorem rescale_of_doubled (run : Word) {new old : Word} (hold : old ≠ 0#32) (h : new.toNat = 2 * old.toNat) :
    (rescale run new old).toNat = min (2 * run.toNat) (2 ^ 32 - 1) := by
  rw [rescale_toNat, h, show run.toNat * (2 * old.toNat) = 2 * run.toNat * old.toNat by ring,
    roundHalfUp_mul _ (toNat_pos_of_ne_zero hold)]

/-- R142 (c): rounding is within a half, and only saturation goes further. -/
theorem rescale_within_half (run new : Word) {old : Word} (hold : old ≠ 0#32) :
    2 * old.toNat * (rescale run new old).toNat ≤ 2 * (run.toNat * new.toNat) + old.toNat ∧
      ((rescale run new old).toNat = 2 ^ 32 - 1 ∨
        2 * (run.toNat * new.toNat) < 2 * old.toNat * (rescale run new old).toNat + old.toNat) := by
  obtain ⟨hle, hlt⟩ := roundHalfUp_spec (run.toNat * new.toNat) old.toNat (toNat_pos_of_ne_zero hold)
  rw [rescale_toNat]
  refine ⟨(Nat.mul_le_mul_left _ (Nat.min_le_left _ _)).trans hle, ?_⟩
  rcases Nat.le_total (2 ^ 32 - 1) (roundHalfUp (run.toNat * new.toNat) old.toNat) with hsat | hfits
  · exact .inl (Nat.min_eq_right hsat)
  · rw [Nat.min_eq_left hfits]
    rw [Nat.mul_add, Nat.mul_one] at hlt
    exact .inr (by omega)

end Sys2Proof.Machine

namespace Sys2Proof.Proofs
open Sys2Proof.Machine

/-- Settles O18: the doubled product is a whole multiple of the old rate, so nothing is rounded. -/
theorem doublingTheRateDoublesCounters : Obligations.DoublingTheRateDoublesCounters := by
  intro r s hidle hheld hrate hdouble
  have hr : r ≠ 0#32 := by
    rintro rfl
    have := toNat_pos_of_ne_zero hrate
    simp at hdouble
    omega
  exact ⟨_, exec_setSampleRate_rescales hidle hheld hrate hr, rescale_of_doubled _ hrate hdouble,
    rescale_of_doubled _ hrate hdouble, rfl, rfl⟩

/-- Settles O19: both counters are rescaled, each within a half. -/
theorem rescaleWithinHalfASample : Obligations.RescaleWithinHalfASample := by
  intro r s hidle hheld hrate hr
  obtain ⟨hale, halt⟩ := rescale_within_half s.astableRun r hrate
  obtain ⟨hmle, hmlt⟩ := rescale_within_half s.monostableRun r hrate
  exact ⟨_, exec_setSampleRate_rescales hidle hheld hrate hr, hale, halt, hmle, hmlt⟩

end Sys2Proof.Proofs

/-! ### What a record's effect depends on (R76, R120) -/

namespace Sys2Proof.Machine

/-- The effect of a record, row by row of R76: only the pitch bend reads `data2`, and no row reads the channel or
the offset. -/
theorem exec_decodeEvent_rows (nb d2 d1 st : Byte) (o : Word) (s : State) :
    exec (decodeEvent (nb ++ d2 ++ d1 ++ st ++ o)) s = .next
      (if nb.toNat = 3 ∧ st.toNat / 16 = 0x8 ∧ d1.toNat < 128 then
        noteOffEffect Config.noteTable (BitVec.ofNat 7 d1.toNat) s
      else if nb.toNat = 3 ∧ st.toNat / 16 = 0x9 ∧ d1.toNat < 128 then
        noteOnEffect Config.noteTable (BitVec.ofNat 7 d1.toNat) s
      else if nb.toNat = 3 ∧ st.toNat / 16 = 0xE ∧ d1.toNat < 128 ∧ d2.toNat < 128 then
        pitchBendEffect Config.noteTable (BitVec.ofNat 14 (d2.toNat * 128 + d1.toNat)) s
      else s) := by
  rw [Proofs.eventDecodeByPriority]
  repeat' split
  · exact exec_noteOff s _ _ _ _
  · exact exec_noteOn s _ _ _ _
  · exact exec_pitchBend s _ _ _
  · exact exec_ignored s _ _ _ _ _

end Sys2Proof.Machine

/-! ### NS_LOWEST by what is held (R113, R115) -/

namespace Sys2Proof.Machine

theorem lowest_eq_none_iff (ns : NoteSet) : ns.lowest = 128 ↔ ∀ m : Note, ns.held m = false := by
  rcases lowest_spec ns with ⟨-, hlow, hnone⟩ | ⟨-, l, hlow, hl, -⟩
  · exact iff_of_true hlow hnone
  · refine iff_of_false ?_ fun hnone => ?_
    · have := l.isLt
      omega
    · rw [hnone l] at hl
      cases hl

theorem lowest_eq_iff (ns : NoteSet) (m : Note) :
    ns.lowest = m.toNat ↔ ns.held m = true ∧ ∀ k : Note, ns.held k = true → m.toNat ≤ k.toNat := by
  refine ⟨fun hm => ?_, fun ⟨hm, hleast⟩ => lowest_eq_of_least hm hleast⟩
  rcases lowest_spec ns with ⟨-, hlow, -⟩ | ⟨-, l, hlow, hl, hleast⟩
  · have := m.isLt
    omega
  · obtain rfl : l = m := BitVec.eq_of_toNat_eq (hlow.symm.trans hm)
    exact ⟨hl, hleast⟩

end Sys2Proof.Machine

namespace Sys2Proof.Proofs
open Sys2Proof.Machine

/-- Settles O24: the rows read `nbytes`, the status nibble and `data1`, and the bend's row also `data2`. -/
theorem velocityChannelOffsetNotRead : Obligations.VelocityChannelOffsetNotRead := by
  intro nb d2 d2' d1 st st' o o' s hnibble hdata2
  rw [exec_decodeEvent_rows, exec_decodeEvent_rows, ← hnibble]
  by_cases hbend : st.toNat / 16 = 0xE
  · rw [hdata2 hbend]
  · simp [hbend]

/-- Settles O25: what is held after NS_CLEAR is what was, without the note, and the scan finds its least. -/
theorem lowestAfterClearIsNextSmallest : Obligations.LowestAfterClearIsNextSmallest := by
  intro ns n
  have hheld (m : Note) : (ns.clear n).held m = true ↔ ns.held m = true ∧ m ≠ n := by
    simp [held_clear, and_comm]
  refine ⟨?none, fun m => ?least⟩
  case none =>
    simp only [lowest_eq_none_iff, ← Bool.not_eq_true, hheld, not_and, not_not]
  case least =>
    simp only [lowest_eq_iff, hheld, and_imp, and_assoc]

end Sys2Proof.Proofs

/-! ### The note table (R31, R201) -/

namespace Sys2Proof.Config

/-- An entry as it is given to be loaded. -/
def NoteEntry.toRaw (e : NoteEntry) : Nat × Nat × Nat := (e.a.val, e.b.val, e.refPitch.raw)

theorem loadNoteEntry_eq_some_iff (raw : Nat × Nat × Nat) (e : NoteEntry) :
    loadNoteEntry raw = some e ↔ e.toRaw = raw := by
  obtain ⟨a, b, p⟩ := raw
  obtain ⟨⟨ea, hea⟩, ⟨eb, heb⟩, ⟨ep⟩⟩ := e
  unfold loadNoteEntry NoteEntry.toRaw
  constructor
  · intro h
    split at h
    · split at h
      · cases h
        rfl
      · cases h
    · cases h
  · rintro ⟨⟩
    rw [dif_pos hea, dif_pos heb]

theorem mem_range_toRaw_iff (raw : Nat × Nat × Nat) :
    raw ∈ Set.range NoteEntry.toRaw ↔ raw.1 ≤ 470000 ∧ raw.2.1 ≤ 470000 := by
  constructor
  · rintro ⟨e, rfl⟩
    exact ⟨Nat.le_of_lt_succ e.a.isLt, Nat.le_of_lt_succ e.b.isLt⟩
  · rintro ⟨ha, hb⟩
    exact ⟨⟨⟨raw.1, Nat.lt_succ_of_le ha⟩, ⟨raw.2.1, Nat.lt_succ_of_le hb⟩, ⟨raw.2.2⟩⟩, rfl⟩

theorem mapM_loadNoteEntry_eq_some_iff (raw : List (Nat × Nat × Nat)) (es : List NoteEntry) :
    raw.mapM loadNoteEntry = some es ↔ es.map NoteEntry.toRaw = raw := by
  induction raw generalizing es with
  | nil => simp [eq_comm]
  | cons r rs ih =>
    cases es with
    | nil => simp [Option.bind_eq_some_iff]
    | cons e es => simp [Option.bind_eq_some_iff, loadNoteEntry_eq_some_iff, ih]

/-- A loaded table is the one whose entries are those given. -/
theorem loadNoteTable_eq_some_iff (raw : List (Nat × Nat × Nat)) (t : NoteTable) :
    loadNoteTable raw = some t ↔ t.toList.map NoteEntry.toRaw = raw := by
  rw [← mapM_loadNoteEntry_eq_some_iff]
  unfold loadNoteTable
  cases h : raw.mapM loadNoteEntry with
  | none => simp
  | some es =>
    dsimp only
    by_cases hlength : es.length = noteCount
    · rw [dif_pos hlength, Option.some_inj, Option.some_inj]
      constructor
      · rintro rfl
        rfl
      · rintro rfl
        exact Vector.toArray_inj.mp Vector.toArray_toList
    · rw [dif_neg hlength, Option.some_inj]
      refine iff_of_false nofun ?_
      rintro rfl
      exact hlength Vector.length_toList

end Sys2Proof.Config

namespace Sys2Proof.Proofs
open Sys2Proof.Machine

/-- Settles O26: a raw table is in the image of the tables exactly when its entries are in range and 128 in
number. -/
theorem noteTableLoadsOnlyIfWellFormed : Obligations.NoteTableLoadsOnlyIfWellFormed := by
  intro raw
  refine ⟨?_, fun t ht n => ?_⟩
  · simp only [Option.isSome_iff_exists, Config.loadNoteTable_eq_some_iff, ← Config.mem_range_toRaw_iff]
    constructor
    · rintro ⟨t, rfl⟩
      simp
    · rintro ⟨hlength, hrange⟩
      obtain ⟨es, rfl⟩ : raw ∈ Set.range (List.map Config.NoteEntry.toRaw) := by
        rwa [Set.range_list_map]
      rw [List.length_map] at hlength
      exact ⟨⟨es.toArray, hlength⟩, rfl⟩
  · have hn : n.toNat < t.toList.length := by
      rw [Vector.length_toList]
      exact n.isLt
    rw [← (Config.loadNoteTable_eq_some_iff raw t).mp ht, List.getElem?_map, List.getElem?_eq_getElem hn]
    simp [tableRead, Config.NoteEntry.toRaw]

end Sys2Proof.Proofs

/-! ### Monotonicity and range of the timings (R105) -/

namespace Sys2Proof.Proofs
open Sys2Proof.Machine

/-- Settles O28: rounding is monotone, and so is each product that is rounded. -/
theorem retuneIsMonotone : Obligations.RetuneIsMonotone := by
  intro a a' b b' sr sr' ha hb hsr
  simp only [retune_astableHigh, retune_astableLow, retune_monostableHigh]
  refine ⟨roundHalfUp_mono _ ?_, roundHalfUp_mono _ ?_, roundHalfUp_mono _ ?_, roundHalfUp_mono _ ?_⟩
  all_goals gcongr
  exact Nat.le_add_right a 1000

/-- Settles O29: the timings are largest at the ends of the ranges (R105 (b)), and those fit. -/
theorem retuneFitsItsWidths : Obligations.RetuneFitsItsWidths := by
  intro a b sr ha hb hsr
  obtain ⟨hhigh, hlow, hmono, -⟩ := retuneIsMonotone a 470000 b 470000 sr (2 ^ 32 - 1) ha hb (by omega)
  have hmax : retune 470000 470000 (2 ^ 32 - 1) = ⟨14018902, 13989138, 139891380⟩ := by decide
  simp only [hmax] at hhigh hlow hmono
  exact ⟨by omega, by omega⟩

end Sys2Proof.Proofs

/-! ### The pulse train of a run of samples (R150, R153) -/

namespace Sys2Proof.Machine
open Sys2Proof.Safety

/-! #### One sample on the registers of the timer -/

section Sample
variable (s : State)

theorem renderSample_timings : (renderSample s).timings = s.timings := by
  have ha : (renderSample s).pairA = s.pairA := by rw [renderSample_eq]
  have hb : (renderSample s).pairB = s.pairB := by rw [renderSample_eq]
  have hrate : (renderSample s).sampleRate = s.sampleRate := by rw [renderSample_eq]
  rw [State.timings, ha, hb, hrate, ← State.timings]

theorem renderSample_astableRun :
    (renderSample s).astableRun.toNat = min (wrappedAstable s + 1) (2 ^ 32 - 1) := by
  rw [renderSample_eq]
  exact saturate_toNat_eq_min _

theorem renderSample_monostableRun :
    (renderSample s).monostableRun.toNat = min (retriggeredMonostable s + 1) (2 ^ 32 - 1) := by
  rw [renderSample_eq]
  exact saturate_toNat_eq_min _

theorem renderSample_outputLevel : (renderSample s).outputLevel = sampleLevel s := by
  rw [renderSample_eq]

theorem iterate_renderSample_timings (n : Nat) : (renderSample^[n] s).timings = s.timings := by
  induction n with
  | zero => rfl
  | succ n ih => rw [Function.iterate_succ_apply', renderSample_timings, ih]

end Sample

/-! #### The astable phase -/

/-- `P`, the samples of one astable period (R153). -/
def astablePeriod (s : State) : Nat := s.timings.astableHigh + s.timings.astableLow

theorem wrappedAstable_eq (s : State) :
    wrappedAstable s = if astablePeriod s ≤ s.astableRun.toNat then 0 else s.astableRun.toNat := rfl

theorem renderSample_astablePeriod (s : State) : astablePeriod (renderSample s) = astablePeriod s := by
  rw [astablePeriod, renderSample_timings, ← astablePeriod]

theorem wrappedAstable_lt {s : State} (hpos : 0 < astablePeriod s) : wrappedAstable s < astablePeriod s := by
  rw [wrappedAstable_eq]
  split <;> omega

theorem wrappedAstable_renderSample {s : State} (hpos : 0 < astablePeriod s) (hfits : astablePeriod s < 2 ^ 32) :
    wrappedAstable (renderSample s) = (wrappedAstable s + 1) % astablePeriod s := by
  have hlt := wrappedAstable_lt hpos
  rw [wrappedAstable_eq, renderSample_astablePeriod, renderSample_astableRun, Nat.min_eq_left (by omega)]
  split
  next hwrap => rw [show wrappedAstable s + 1 = astablePeriod s by omega, Nat.mod_self]
  next hless => rw [Nat.mod_eq_of_lt (by omega)]

theorem iterate_renderSample_astablePeriod (s : State) (n : Nat) :
    astablePeriod (renderSample^[n] s) = astablePeriod s := by
  rw [astablePeriod, iterate_renderSample_timings, ← astablePeriod]

/-- From the boundary on, the phase after `n` samples is `ah + n` within the period. -/
theorem wrappedAstable_iterate {s : State} (hlow : 0 < s.timings.astableLow) (hfits : astablePeriod s < 2 ^ 32)
    (hstart : s.astableRun.toNat = s.timings.astableHigh) (n : Nat) :
    wrappedAstable (renderSample^[n] s) = (s.timings.astableHigh + n) % astablePeriod s := by
  have hlt : s.timings.astableHigh < astablePeriod s := Nat.lt_add_of_pos_right hlow
  induction n with
  | zero =>
    rw [Function.iterate_zero_apply, wrappedAstable_eq, hstart, if_neg (Nat.not_le.mpr hlt), Nat.add_zero,
      Nat.mod_eq_of_lt hlt]
  | succ n ih =>
    have hperiod := iterate_renderSample_astablePeriod s n
    rw [Function.iterate_succ_apply', wrappedAstable_renderSample (by omega) (by omega), hperiod, ih,
      Nat.mod_add_mod, Nat.add_assoc]

/-- The phase is at the boundary once each period. -/
theorem wrappedAstable_iterate_boundary {s : State} (hlow : 0 < s.timings.astableLow)
    (hfits : astablePeriod s < 2 ^ 32) (hstart : s.astableRun.toNat = s.timings.astableHigh) (n : Nat) :
    wrappedAstable (renderSample^[n] s) = s.timings.astableHigh ↔ n % astablePeriod s = 0 := by
  have hlt : s.timings.astableHigh < astablePeriod s := Nat.lt_add_of_pos_right hlow
  rw [wrappedAstable_iterate hlow hfits hstart]
  calc (s.timings.astableHigh + n) % astablePeriod s = s.timings.astableHigh
      ↔ s.timings.astableHigh + n ≡ s.timings.astableHigh + 0 [MOD astablePeriod s] := by
        rw [Nat.ModEq, Nat.add_zero, Nat.mod_eq_of_lt hlt]
    _ ↔ n ≡ 0 [MOD astablePeriod s] := Nat.ModEq.add_iff_left rfl
    _ ↔ n % astablePeriod s = 0 := by rw [Nat.ModEq, Nat.zero_mod]

/-- R105 (e): in range no counter of a pulse train comes near saturation. -/
theorem timings_fit {s : State} (h : RegistersLegal s) :
    astablePeriod s < 2 ^ 25 ∧ s.timings.monostableHigh < 2 ^ 28 :=
  Proofs.retuneFitsItsWidths _ _ _ h.pairA_le h.pairB_le s.sampleRate.isLt

/-! #### The pulse of the monostable -/

/-- The samples from one re-trigger to the next: the first boundary at which the monostable is released. -/
def pulsePeriod (s : State) : Nat :=
  astablePeriod s * ((s.timings.monostableHigh + astablePeriod s - 1) / astablePeriod s)

theorem monostableHigh_le_pulsePeriod {s : State} (hpos : 0 < astablePeriod s) :
    s.timings.monostableHigh ≤ pulsePeriod s := by
  have h := Nat.lt_mul_div_succ (s.timings.monostableHigh + astablePeriod s - 1) hpos
  rw [Nat.mul_add, Nat.mul_one] at h
  unfold pulsePeriod
  omega

theorem pulsePeriod_le (s : State) : pulsePeriod s ≤ s.timings.monostableHigh + astablePeriod s - 1 :=
  Nat.mul_div_le _ _

/-- Every boundary inside a pulse period comes while the monostable still runs. -/
theorem lt_monostableHigh_of_boundary {s : State} {j : Nat} (hpos : 0 < astablePeriod s)
    (hj : j < pulsePeriod s) (hboundary : j % astablePeriod s = 0) : j < s.timings.monostableHigh := by
  obtain ⟨c, rfl⟩ := Nat.dvd_of_mod_eq_zero hboundary
  have hc : c < (s.timings.monostableHigh + astablePeriod s - 1) / astablePeriod s := Nat.lt_of_mul_lt_mul_left hj
  have hle : (c + 1) * astablePeriod s ≤ s.timings.monostableHigh + astablePeriod s - 1 :=
    (Nat.le_div_iff_mul_le hpos).mp hc
  rw [Nat.add_mul, Nat.one_mul, Nat.mul_comm] at hle
  omega

/-- The state before sample `j` of a pulse: released at sample 0, and from then on the monostable counts the
samples while the level stands for the sample before. -/
def InPulse (j : Nat) (s : State) : Prop :=
  (j = 0 → s.timings.monostableHigh ≤ s.monostableRun.toNat) ∧
    (0 < j → s.monostableRun.toNat = j ∧ s.outputLevel = decide (j ≤ s.timings.monostableHigh))

section Pulse
variable {s : State} {j : Nat} (hpos : 0 < astablePeriod s) (hj : j < pulsePeriod s)
  (hboundary : wrappedAstable s = s.timings.astableHigh ↔ j % astablePeriod s = 0) (h : InPulse j s)
include hpos hj hboundary h

/-- A pulse re-triggers at its sample 0 only. -/
theorem retriggers_iff_of_inPulse :
    (s.timings.monostableHigh ≤ s.monostableRun.toNat ∧ wrappedAstable s = s.timings.astableHigh) ↔ j = 0 := by
  rw [hboundary]
  constructor
  · rintro ⟨hreleased, hmod⟩
    by_contra hne
    obtain ⟨hrun, -⟩ := h.2 (by omega)
    have := lt_monostableHigh_of_boundary hpos hj hmod
    omega
  · rintro rfl
    exact ⟨h.1 rfl, Nat.zero_mod _⟩

theorem sampleLevel_of_inPulse (hmono : 1 ≤ s.timings.monostableHigh) :
    sampleLevel s = decide (j < s.timings.monostableHigh) := by
  have hretrigger := retriggers_iff_of_inPulse hpos hj hboundary h
  rw [sampleLevel_eq]
  split
  next hreleased =>
    rw [decide_eq_decide]
    constructor
    · intro hphase
      rw [hretrigger.mp ⟨hreleased, hphase⟩]
      exact hmono
    · intro hlt
      refine (hretrigger.mpr ?_).2
      by_contra hne
      obtain ⟨hrun, -⟩ := h.2 (by omega)
      omega
  next hruns =>
    have hne : j ≠ 0 := fun hzero => hruns (h.1 hzero)
    obtain ⟨hrun, hlevel⟩ := h.2 (by omega)
    rw [hlevel, decide_eq_decide]
    omega

theorem retriggeredMonostable_of_inPulse : retriggeredMonostable s = j := by
  have hretrigger := retriggers_iff_of_inPulse hpos hj hboundary h
  rw [retriggeredMonostable_eq]
  split
  next hboth => exact (hretrigger.mp hboth).symm
  next hnot =>
    have hne : j ≠ 0 := fun hzero => hnot (hretrigger.mpr hzero)
    exact (h.2 (by omega)).1

theorem inPulse_renderSample (hmono : 1 ≤ s.timings.monostableHigh) (hfits : pulsePeriod s < 2 ^ 32) :
    InPulse ((j + 1) % pulsePeriod s) (renderSample s) := by
  have hrun : (renderSample s).monostableRun.toNat = j + 1 := by
    rw [renderSample_monostableRun, retriggeredMonostable_of_inPulse hpos hj hboundary h]
    omega
  have hlevel := sampleLevel_of_inPulse hpos hj hboundary h hmono
  rcases (show j + 1 < pulsePeriod s ∨ j + 1 = pulsePeriod s by omega) with hinside | hlast
  · rw [Nat.mod_eq_of_lt hinside]
    refine ⟨nofun, fun _ => ⟨hrun, ?_⟩⟩
    rw [renderSample_outputLevel, hlevel, renderSample_timings]
    rfl
  · rw [hlast, Nat.mod_self]
    refine ⟨fun _ => ?_, nofun⟩
    rw [renderSample_timings, hrun, hlast]
    exact monostableHigh_le_pulsePeriod hpos

end Pulse

theorem iterate_renderSample_pulsePeriod (s : State) (n : Nat) :
    pulsePeriod (renderSample^[n] s) = pulsePeriod s := by
  rw [pulsePeriod, iterate_renderSample_astablePeriod, iterate_renderSample_timings, ← pulsePeriod]

/-- The premises of R153 (a): in range, with a low phase and a monostable, at a re-trigger. -/
structure AtRetrigger (s : State) : Prop where
  legal : RegistersLegal s
  low_pos : 0 < s.timings.astableLow
  mono_pos : 1 ≤ s.timings.monostableHigh
  boundary : s.astableRun.toNat = s.timings.astableHigh
  released : s.timings.monostableHigh ≤ s.monostableRun.toNat

theorem AtRetrigger.period_pos {s : State} (h : AtRetrigger s) : 0 < astablePeriod s :=
  h.low_pos.trans_le (Nat.le_add_left _ _)

theorem AtRetrigger.pulsePeriod_pos {s : State} (h : AtRetrigger s) : 0 < pulsePeriod s :=
  Nat.lt_of_lt_of_le h.mono_pos (monostableHigh_le_pulsePeriod h.period_pos)

theorem AtRetrigger.boundary_iterate {s : State} (h : AtRetrigger s) (n : Nat) :
    wrappedAstable (renderSample^[n] s) = (renderSample^[n] s).timings.astableHigh ↔
      n % pulsePeriod s % astablePeriod (renderSample^[n] s) = 0 := by
  obtain ⟨hfits, -⟩ := timings_fit h.legal
  rw [iterate_renderSample_timings, iterate_renderSample_astablePeriod,
    wrappedAstable_iterate_boundary h.low_pos (by omega) h.boundary, pulsePeriod,
    Nat.mod_mod_of_dvd _ (Nat.dvd_mul_right _ _)]

/-- The pulses follow each other without a gap. -/
theorem AtRetrigger.inPulse_iterate {s : State} (h : AtRetrigger s) (n : Nat) :
    InPulse (n % pulsePeriod s) (renderSample^[n] s) := by
  induction n with
  | zero => exact ⟨fun _ => h.released, fun hpos => absurd hpos (by simp)⟩
  | succ n ih =>
    obtain ⟨hperiod, hmono⟩ := timings_fit h.legal
    have hle := pulsePeriod_le s
    have hnext := inPulse_renderSample (s := renderSample^[n] s) (j := n % pulsePeriod s)
      (by rw [iterate_renderSample_astablePeriod]; exact h.period_pos)
      (by rw [iterate_renderSample_pulsePeriod]; exact Nat.mod_lt _ h.pulsePeriod_pos)
      (h.boundary_iterate n) ih
      (by rw [iterate_renderSample_timings]; exact h.mono_pos)
      (by rw [iterate_renderSample_pulsePeriod]; omega)
    rwa [iterate_renderSample_pulsePeriod, Nat.mod_add_mod,
      ← Function.iterate_succ_apply' renderSample n s] at hnext

theorem AtRetrigger.sampleLevel_iterate {s : State} (h : AtRetrigger s) (n : Nat) :
    sampleLevel (renderSample^[n] s) = decide (n % pulsePeriod s < s.timings.monostableHigh) := by
  have hlevel := sampleLevel_of_inPulse (s := renderSample^[n] s) (j := n % pulsePeriod s)
    (by rw [iterate_renderSample_astablePeriod]; exact h.period_pos)
    (by rw [iterate_renderSample_pulsePeriod]; exact Nat.mod_lt _ h.pulsePeriod_pos)
    (h.boundary_iterate n) (h.inPulse_iterate n)
    (by rw [iterate_renderSample_timings]; exact h.mono_pos)
  rwa [iterate_renderSample_timings] at hlevel

/-! #### Without a grid (R153 (c), (d)) -/

theorem wrappedAstable_of_no_period {s : State} (h : astablePeriod s = 0) : wrappedAstable s = 0 := by
  rw [wrappedAstable_eq, if_pos (h.trans_le (Nat.zero_le _))]

/-- With `P = 0` every phase is the boundary, so a released monostable re-triggers. -/
theorem sampleLevel_of_no_period {s : State} (h : astablePeriod s = 0) (hlevel : s.outputLevel = true) :
    sampleLevel s = true := by
  have hhigh : s.timings.astableHigh = 0 := by
    unfold astablePeriod at h
    omega
  rw [sampleLevel_eq, wrappedAstable_of_no_period h, hhigh, hlevel]
  simp

theorem iterate_outputLevel_of_no_period {s : State} (h : astablePeriod s = 0) (hlevel : s.outputLevel = true)
    (n : Nat) : (renderSample^[n] s).outputLevel = true := by
  induction n with
  | zero => exact hlevel
  | succ n ih =>
    rw [Function.iterate_succ_apply', renderSample_outputLevel]
    exact sampleLevel_of_no_period ((iterate_renderSample_astablePeriod s n).trans h) ih

/-- With no low phase the wrap comes before the boundary is seen. -/
theorem wrappedAstable_ne_of_no_low {s : State} (hlow : s.timings.astableLow = 0)
    (hhigh : 0 < s.timings.astableHigh) : wrappedAstable s ≠ s.timings.astableHigh := by
  have hperiod : astablePeriod s = s.timings.astableHigh := by rw [astablePeriod, hlow, Nat.add_zero]
  have := wrappedAstable_lt (hperiod ▸ hhigh)
  omega

theorem sampleRetriggers_of_no_low {s : State} (hlow : s.timings.astableLow = 0)
    (hhigh : 0 < s.timings.astableHigh) : sampleRetriggers s = false := by
  rw [← Bool.not_eq_true, sampleRetriggers_iff]
  exact fun h => wrappedAstable_ne_of_no_low hlow hhigh h.2

/-- A monostable that is released and does not re-trigger stays released. -/
theorem released_renderSample {s : State} (hno : sampleRetriggers s = false)
    (hreleased : s.timings.monostableHigh ≤ s.monostableRun.toNat) :
    (renderSample s).timings.monostableHigh ≤ (renderSample s).monostableRun.toNat := by
  have hlt := s.monostableRun.isLt
  rw [renderSample_timings, renderSample_monostableRun, retriggeredMonostable, hno]
  simp only [Bool.false_eq_true, if_false]
  omega

theorem iterate_released_of_no_low {s : State} (hlow : s.timings.astableLow = 0)
    (hhigh : 0 < s.timings.astableHigh) (hreleased : s.timings.monostableHigh ≤ s.monostableRun.toNat) (n : Nat) :
    (renderSample^[n] s).timings.monostableHigh ≤ (renderSample^[n] s).monostableRun.toNat := by
  induction n with
  | zero => exact hreleased
  | succ n ih =>
    have htimings := iterate_renderSample_timings s n
    rw [Function.iterate_succ_apply']
    exact released_renderSample (sampleRetriggers_of_no_low (by rw [htimings, hlow]) (by rwa [htimings])) ih

end Sys2Proof.Machine

namespace Sys2Proof.Proofs
open Sys2Proof.Machine

/-- Settles O34: the astable boundary comes once each `P` samples, and the monostable lets every boundary inside a
pulse pass. -/
theorem pulseTrainHasItsPeriod : Obligations.PulseTrainHasItsPeriod := by
  rintro s hlegal hlow hmono hboundary hreleased n P rfl
  exact AtRetrigger.sampleLevel_iterate ⟨hlegal, hlow, hmono, hboundary, hreleased⟩ n

/-- Settles O35: the monostable is released throughout, so every boundary is a pulse of one sample. -/
theorem barePulsesHaveTheAstablePeriod : Obligations.BarePulsesHaveTheAstablePeriod := by
  intro s hlegal hlow hmono hstart n
  obtain ⟨hfits, -⟩ := timings_fit hlegal
  have hboundary := wrappedAstable_iterate_boundary hlow (by omega) hstart n
  rw [sampleLevel_eq, iterate_renderSample_timings, hmono, if_pos (Nat.zero_le _), decide_eq_decide]
  exact hboundary

/-- Settles O36: with `P = 0` the boundary is always seen, and with no low phase it never is. -/
theorem levelFreezesWithoutAGrid : Obligations.LevelFreezesWithoutAGrid := by
  refine ⟨fun s hperiod hlevel n => ?_, fun s hlow hhigh => ⟨fun n => ?_, fun hreleased n => ?_⟩⟩
  · exact sampleLevel_of_no_period ((iterate_renderSample_astablePeriod s n).trans hperiod)
      (iterate_outputLevel_of_no_period hperiod hlevel n)
  all_goals have htimings := iterate_renderSample_timings s n
  · exact sampleRetriggers_of_no_low (by rw [htimings, hlow]) (by rwa [htimings])
  · have hno := wrappedAstable_ne_of_no_low (s := renderSample^[n] s) (by rw [htimings, hlow]) (by rwa [htimings])
    rw [sampleLevel_eq, if_pos (iterate_released_of_no_low hlow hhigh hreleased n)]
    exact decide_eq_false hno

end Sys2Proof.Proofs

/-! ### The assembler (R83, R84) -/

namespace Sys2Proof.Machine

/-! #### Operands in range -/

theorem asmU32_toNat (x : Word) : asmU32 x.toNat = some x := by
  have := x.isLt
  rw [asmU32, if_pos (by omega), BitVec.ofInt_natCast, BitVec.ofNat_toNat, BitVec.setWidth_eq]

theorem asmByte_toNat (b : Byte) : asmByte b.toNat = some b := by
  have := b.isLt
  rw [asmByte, if_pos (by omega), BitVec.ofInt_natCast, BitVec.ofNat_toNat, BitVec.setWidth_eq]

theorem asmI32_toInt (x : Word) : asmI32 x.toInt = some x := by
  have hlo := BitVec.le_toInt x
  have hhi := BitVec.toInt_lt (x := x)
  rw [asmI32, if_pos (by omega), BitVec.ofInt_toInt]

theorem asmEvent_toNat (o : Word) (st d1 d2 nb : Byte) :
    asmEvent o.toNat st.toNat d1.toNat d2.toNat nb.toNat = some [.event (eventRecord nb d2 d1 st o)] := by
  simp only [asmEvent, asmU32_toNat, asmByte_toNat]

/-! #### Records of the event lines -/

theorem expandLine_on (o : Word) (n : Note) (v : Byte) :
    expandLine (.on o.toNat n.toNat v.toNat) =
      some [.event (eventRecord 0x03#8 v (0#1 ++ n) (0x9#4 ++ 0#4) o)] := by
  rw [← asmEvent_toNat, dataByte_toNat]
  rfl

theorem expandLine_off (o : Word) (n : Note) (v : Byte) :
    expandLine (.off o.toNat n.toNat v.toNat) =
      some [.event (eventRecord 0x03#8 v (0#1 ++ n) (0x8#4 ++ 0#4) o)] := by
  rw [← asmEvent_toNat, dataByte_toNat]
  rfl

/-- R84: the data bytes are the two halves of the 14-bit value. -/
theorem asmBend_toNat (o : Word) (v : BendValue) :
    asmBend o.toNat v.toNat =
      some [.event (eventRecord 0x03#8 (0#1 ++ v.extractLsb' 7 7) (0#1 ++ v.extractLsb' 0 7) (0xE#4 ++ 0#4) o)] := by
  have hlt := v.isLt
  have hlow : (v.toNat : Int) % 128 = ((v.extractLsb' 0 7).toNat : Nat) := by
    rw [BitVec.extractLsb'_toNat, Nat.shiftRight_zero]
    omega
  have hhigh : (v.toNat : Int) / 128 = ((v.extractLsb' 7 7).toNat : Nat) := by
    rw [BitVec.extractLsb'_toNat, Nat.shiftRight_eq_div_pow]
    omega
  rw [← asmEvent_toNat, dataByte_toNat, dataByte_toNat, asmBend, if_pos (by omega), hlow, hhigh]
  rfl

/-- The record of a bend line decodes to the bend of its value. -/
theorem asmBend_decodes (o : Word) (v : BendValue) :
    ∃ r, asmBend o.toNat v.toNat = some [.event r] ∧ decodeEvent r = .pitchBend v 0#4 o :=
  ⟨_, asmBend_toNat o v, decodeEvent_of_encodeNat rfl rfl rfl⟩

/-! #### Command words at the port -/

theorem decodeArrival_commandArrival (op : BitVec 8) (x : Word) :
    decodeArrival (commandArrival op x) = .ok (decodeCommand (commandWord op x)) := by
  have hlength : (bytesOfNat Format.cmd40.bytes (commandWord op x).toNat).length = 5 := bytesOfNat_length _ _
  have hword : natOfBytes (bytesOfNat Format.cmd40.bytes (commandWord op x).toNat) = (commandWord op x).toNat :=
    (natOfBytes_bytesOfNat _ _).trans (Nat.mod_eq_of_lt (commandWord op x).isLt)
  rw [commandArrival, decodeArrival, decodeBytes_cmd40 hlength, hword, BitVec.ofNat_toNat, BitVec.setWidth_eq]

/-- Only op 0x06 is a RENDER_BLOCK: the word of any other operation shows another opcode. -/
theorem decodeCommand_eq_renderBlock_iff (op : BitVec 8) (x : Word) :
    (∃ l, decodeCommand (commandWord op x) = .renderBlock l) ↔ op = 0x06#8 := by
  constructor
  · rintro ⟨l, hl⟩
    obtain ⟨-, -, hword⟩ := decodeCommand_wellFormed_encodes (commandWord op x)
    rw [hl] at hword
    have hsame : commandWord 0x06#8 l = commandWord op x := BitVec.eq_of_toNat_eq hword
    rw [← opOf_commandWord op x, ← hsame, opOf_commandWord]
  · rintro rfl
    exact ⟨x, decodeCommand_of_encodeNat rfl rfl⟩

theorem isRenderBlock_iff {a : Arrival} {i : Instr} (h : decodeArrival a = .ok i) :
    a.isRenderBlock = true ↔ ∃ l, i = .renderBlock l := by
  rw [Arrival.isRenderBlock, h]
  cases i <;> simp

theorem isRenderBlock_commandArrival (op : BitVec 8) (x : Word) :
    (commandArrival op x).isRenderBlock = decide (op = 0x06#8) := by
  rw [Bool.eq_iff_iff, isRenderBlock_iff (decodeArrival_commandArrival op x), decodeCommand_eq_renderBlock_iff,
    decide_eq_true_eq]

/-! #### Expansion of a program -/

theorem assemble_eq_bind (ls : List SourceLine) : assemble ls = (expandAll ls).bind (assembleCore none) := by
  unfold assemble
  cases expandAll ls <;> rfl

theorem expandAll_cons {l : SourceLine} {xs : List CoreLine} (h : expandLine l = some xs) (ls : List SourceLine) :
    expandAll (l :: ls) = (expandAll ls).map (xs ++ ·) := by
  rw [expandAll, h]
  cases expandAll ls <;> rfl

theorem expandAll_append {ls : List SourceLine} {xs : List CoreLine} (h : expandAll ls = some xs)
    (rest : List SourceLine) : expandAll (ls ++ rest) = (expandAll rest).map (xs ++ ·) := by
  induction ls generalizing xs with
  | nil =>
    cases h
    simp
  | cons l ls ih =>
    cases hl : expandLine l with
    | none => simp [expandAll, hl] at h
    | some ys =>
      rw [expandAll_cons hl, Option.map_eq_some_iff] at h
      obtain ⟨zs, hzs, rfl⟩ := h
      rw [List.cons_append, expandAll_cons hl, ih hzs, Option.map_map]
      simp [Function.comp_def]

theorem assemble_cons {l : SourceLine} {xs : List CoreLine} (h : expandLine l = some xs) (ls : List SourceLine) :
    assemble (l :: ls) = (expandAll ls).bind fun ys => assembleCore none (xs ++ ys) := by
  rw [assemble_eq_bind, expandAll_cons h, Option.bind_map]
  rfl

/-! #### Assembling the lines of a block -/

/-- The records of an open block join its list, and its closing line delivers the list. -/
theorem assembleCore_records (acc es : List EventRecord) (ls : List CoreLine) :
    assembleCore (some acc) (es.map .event ++ .closeBlock :: ls) =
      (assembleCore none ls).map fun p => { p with blocks := (acc ++ es) :: p.blocks } := by
  induction es generalizing acc with
  | nil => rw [List.append_nil]; rfl
  | cons e es ih =>
    rw [List.map_cons, List.cons_append, assembleCore, ih, List.append_assoc, List.singleton_append]

/-- A whole block: its RENDER_BLOCK and its list. -/
theorem assembleCore_block (l : Word) (es : List EventRecord) (ls : List CoreLine) :
    assembleCore none (.openBlock l :: (es.map .event ++ .closeBlock :: ls)) =
      (assembleCore none ls).map fun p =>
        { arrivals := commandArrival 0x06#8 l :: p.arrivals, blocks := es :: p.blocks } := by
  rw [assembleCore, assembleCore_records, Option.map_map]
  rfl

theorem assembleCore_command (op : BitVec 8) (x : Word) (ls : List CoreLine) :
    assembleCore none (.command op x :: ls) =
      (assembleCore none ls).map fun p =>
        { arrivals := commandArrival op x :: p.arrivals
          blocks := if op.toNat = 6 then [] :: p.blocks else p.blocks } := by
  have hop : op.toNat = 6 ↔ op = 0x06#8 := BitVec.toNat_inj (y := 0x06#8)
  simp only [assembleCore, hop]

/-- Assembling keeps a list for each RENDER_BLOCK; the list of an open block is still to come. -/
theorem assembleCore_blocks_length (o : Option (List EventRecord)) (ls : List CoreLine) (p : Program)
    (h : assembleCore o ls = some p) :
    p.blocks.length = p.arrivals.countP Arrival.isRenderBlock + o.toList.length := by
  fun_induction assembleCore o ls generalizing p
  case case1 =>
    cases h
    rfl
  case case3 ls ih =>
    obtain ⟨q, hq, rfl⟩ := Option.map_eq_some_iff.mp h
    simpa [Arrival.isRenderBlock, decodeArrival] using ih q hq
  case case4 op x ls ih =>
    obtain ⟨q, hq, rfl⟩ := Option.map_eq_some_iff.mp h
    have hcount := ih q hq
    by_cases hop : op = 0x06#8
    · simp [isRenderBlock_commandArrival, hop, hcount]
    · simp [isRenderBlock_commandArrival, hop, hcount]
  case case5 l ls ih =>
    obtain ⟨q, hq, rfl⟩ := Option.map_eq_some_iff.mp h
    simpa [isRenderBlock_commandArrival] using ih q hq
  case case6 es r ls ih => exact ih p h
  case case7 es ls ih =>
    obtain ⟨q, hq, rfl⟩ := Option.map_eq_some_iff.mp h
    simpa using ih q hq
  all_goals cases h

end Sys2Proof.Machine

namespace Sys2Proof.Proofs
open Sys2Proof.Machine

/-- Settles O53: every field of a line is read back by its byte, and the record is the encoding of the operation. -/
theorem assembledEventLinesDecode : Obligations.AssembledEventLinesDecode :=
  ⟨asmEvent_toNat,
    fun o n v => ⟨⟨_, expandLine_on o n v, decodeEvent_of_encodeNat rfl rfl rfl⟩,
      ⟨_, expandLine_off o n v, decodeEvent_of_encodeNat rfl rfl rfl⟩⟩,
    asmBend_decodes⟩

/-- Settles O50: an operand in range is read back as the word it was written as, and each opcode decodes to its
row. -/
theorem assembledLinesDecode : Obligations.AssembledLinesDecode := by
  refine ⟨decodeArrival_commandArrival, fun op n => ⟨?cmd, ?rate, ?gain, ?gesture⟩,
    fun a b => ⟨?potA, ?potB, ?pair⟩, ⟨_, _, rfl, decodeCommand_setGesture _⟩, fun l => ⟨?render, ?empty, ?block⟩,
    ⟨rfl, rfl, rfl⟩, fun o s ho ho' hs hs' => ?bend⟩
  case cmd => simp only [expandLine, asmByte_toNat, asmU32_toNat, asmCommand, Option.map_some]
  case rate => exact ⟨0x05#8, n, by rw [expandLine, asmU32_toNat]; rfl, decodeCommand_setSampleRate n⟩
  case gain => exact ⟨0x03#8, n, by rw [expandLine, asmU32_toNat]; rfl, decodeCommand_setGain n⟩
  case gesture => exact ⟨0x04#8, n, by rw [expandLine, asmU32_toNat]; rfl, decodeCommand_setGesture n⟩
  case potA => exact ⟨0x01#8, a, by rw [expandLine, asmI32_toInt]; rfl, decodeCommand_setPotA a⟩
  case potB => exact ⟨0x02#8, a, by rw [expandLine, asmI32_toInt]; rfl, decodeCommand_setPotB a⟩
  case pair =>
    exact ⟨0x01#8, a, 0x02#8, b, by rw [expandLine, asmI32_toInt, asmI32_toInt]; rfl,
      decodeCommand_setPotA a, decodeCommand_setPotB b⟩
  case render => rw [expandLine, asmU32_toNat]; rfl
  case empty => rw [expandLine, asmU32_toNat]; rfl
  case block =>
    rw [decodeArrival_commandArrival, decodeCommand_of_encodeNat (i := .renderBlock l) rfl rfl]
  case bend =>
    have ho : ((BitVec.ofNat 32 o.toNat).toNat : Int) = o := by
      rw [BitVec.toNat_ofNat]
      omega
    have hs : ((BitVec.ofNat 14 (s + 8192).toNat).toNat : Int) = s + 8192 := by
      rw [BitVec.toNat_ofNat]
      omega
    have hbend := asmBend_decodes (BitVec.ofNat 32 o.toNat) (BitVec.ofNat 14 (s + 8192).toNat)
    rwa [ho, hs] at hbend

/-- Settles O54: the lines expand one by one, and assembling a block's lines collects its records. -/
theorem everyAssembledBlockHasItsList : Obligations.EveryAssembledBlockHasItsList := by
  refine ⟨fun l lines es rest hlines => ?render, fun l rest => ?empty, fun l rest => ?cmd, assembleCore_block,
    assembleCore_command, fun ls => rfl, fun ls p hp => assembleCore_blocks_length none ls p hp,
    fun ls p hp => ?count⟩
  case render =>
    have hopen : expandLine (.render l.toNat) = some [.openBlock l] := by rw [expandLine, asmU32_toNat]; rfl
    have hclose : expandLine .close = some [.closeBlock] := rfl
    rw [assemble_cons hopen, expandAll_append hlines, expandAll_cons hclose, assemble_eq_bind, Option.map_bind,
      Option.map_map, Option.bind_map]
    exact congrArg _ (funext fun ys => assembleCore_block l es ys)
  case empty =>
    have hopen : expandLine (.renderEmpty l.toNat) = some [.openBlock l, .closeBlock] := by
      rw [expandLine, asmU32_toNat]; rfl
    rw [assemble_cons hopen, assemble_eq_bind, Option.map_bind]
    exact congrArg _ (funext fun ys => assembleCore_block l [] ys)
  case cmd =>
    have hcmd : expandLine (.cmd 0x06 l.toNat) = some [.command 0x06#8 l] := by rw [expandLine, asmU32_toNat]; rfl
    rw [assemble_cons hcmd, assemble_eq_bind, Option.map_bind]
    exact congrArg _ (funext fun ys => assembleCore_command 0x06#8 l ys)
  case count =>
    rw [assemble_eq_bind, Option.bind_eq_some_iff] at hp
    obtain ⟨cs, -, hcs⟩ := hp
    exact assembleCore_blocks_length none cs p hcs

end Sys2Proof.Proofs
